-- ==== Sys2Proof/Word.lean ====
section
/-! DEFINITION. The words of SPPB and their plainest arithmetic (00_scope.md R10): every value is unsigned. -/

namespace Sys2Proof

/-- One byte on any port (00_scope.md R10). -/
abbrev Byte := BitVec 8

/-- A millisecond count, `TIME_BITS` = 32 bits wide (00_scope.md R7, R8). -/
abbrev Time := BitVec 32

/-- A byte address of the Virtual Flash (20_memory.md R48). -/
abbrev Addr := BitVec 32

/-- A stick coordinate on the wire, and a calibration value (10_state.md R40). -/
abbrev Wire := BitVec 12

/-- A raw axis sample, and a button mask (10_state.md R18, 30_encoding.md R71). -/
abbrev Half := BitVec 16

end Sys2Proof
end

