-- ==== Sys2Proof/Config.lean ====
section
/-! DEFINITION. What one SPPB fixes for its life: the constants and the parameters of 00_scope.md R8.
A model takes the parameters as arguments and no event writes them (R9), so they are one plain record, `Params`.
The reference configuration and the constraints on a configuration stand in Machine/Configuration.lean.
SPPB has no free value: the one open draw, `ID_LOW`, is an operand of PowerOn (70_reset_and_hazards.md R194). -/

namespace Sys2Proof

/-- `LEGACY_LEN`: "fixed 8-byte legacy shape" (00_scope.md R8). -/
def legacyLen : Nat := 8

/-- `LENPFX_OVERHEAD`: "payload length + 4" (00_scope.md R8). -/
def lenpfxOverhead : Nat := 4

/-- `VF_BANK_SIZE`: "256-byte-aligned address bank" (00_scope.md R8). -/
def vfBankSize : Nat := 256

/-- `FRAME_FMT` (30_encoding.md R74; 90_conflicts.md C1). -/
inductive FrameFmt where
  | lenPfx
  | legacy8
  deriving DecidableEq, Repr

/-- The 14 button names of InputState (10_state.md R18; 00_scope.md R8 `BTN_MAP`). -/
inductive Button where
  | y | b | a | x | l | r | zl | zr | minus | plus | lStick | rStick | home | capture
  deriving DecidableEq, Repr

/-- The two command channels (10_state.md R36). -/
inductive Channel where
  | cfg
  | feat
  deriving DecidableEq, Repr

/-- The configuration commands that have a code of their own (30_encoding.md R86). -/
inductive CfgCmd where
  | identify | handshake | baud | disableTimeout | enableTimeout
  deriving DecidableEq, Repr

/-- The feature commands that have a code of their own (30_encoding.md R86). -/
inductive FeatCmd where
  | getState | pair | deviceInfo | setMode | triggerButtons | setShipment | spiRead
  | setNfcIrConfig | setNfcIrState | setPlayerLights | getPlayerLights | setHomeLight
  | toggleImu | setImuSensitivity | enableVibration | readImu | getVoltage | legacyUnknown
  deriving DecidableEq, Repr

/-- The four dpad flags one direction code stands for (30_encoding.md R72). -/
structure DirFlags where
  up : Bool
  down : Bool
  left : Bool
  right : Bool
  deriving DecidableEq, Repr

/-- One row of `DIR_MAP`; a code with no row is neutral (30_encoding.md R72). -/
structure DirEntry where
  code : Byte
  flags : DirFlags
  deriving DecidableEq, Repr

/-- One CalibrationRange (10_state.md R40). -/
structure Calibration where
  min : Wire
  center : Wire
  max : Wire
  deriving DecidableEq, Repr

/-- `CAL[s][a]` for stick s and axis a (41_report_builder.md R110). -/
structure CalTable where
  leftX : Calibration
  leftY : Calibration
  rightX : Calibration
  rightY : Calibration
  deriving DecidableEq, Repr

/-- One entry of `FLASH_MAP`; its `len` is the length of `bytes` (20_memory.md R49). -/
structure FlashEntry where
  bank : Addr
  bytes : List Byte
  deriving DecidableEq, Repr

/-- One byte for each configuration command (`CODE`, 30_encoding.md R86). -/
structure CfgTable where
  identify : Byte
  handshake : Byte
  baud : Byte
  disableTimeout : Byte
  enableTimeout : Byte
  deriving DecidableEq, Repr

/-- One byte for each feature command (`CODE` and `ACK`, 30_encoding.md R80, R86). -/
structure FeatTable where
  getState : Byte
  pair : Byte
  deviceInfo : Byte
  setMode : Byte
  triggerButtons : Byte
  setShipment : Byte
  spiRead : Byte
  setNfcIrConfig : Byte
  setNfcIrState : Byte
  setPlayerLights : Byte
  getPlayerLights : Byte
  setHomeLight : Byte
  toggleImu : Byte
  setImuSensitivity : Byte
  enableVibration : Byte
  readImu : Byte
  getVoltage : Byte
  legacyUnknown : Byte
  deriving DecidableEq, Repr

/-- Three bytes of the device id: `ID_TOP[0..2]` or `ID_LOW[0..2]` (10_state.md R41). -/
structure IdBytes where
  b0 : Byte
  b1 : Byte
  b2 : Byte
  deriving DecidableEq, Repr

/-- The parameters of 00_scope.md R8, each under its name there. -/
structure Params where
  sentinel : Byte
  frameFmt : FrameFmt
  fdBufCap : Nat
  fdMinFrame : Nat
  fdTimeoutMs : Nat
  dirMap : List DirEntry
  /-- `BTN_MAP`: the button of mask bit 0, of bit 1, ... of bit 13. -/
  btnMap : List Button
  axisMid : Half
  cal : CalTable
  reportLen : Nat
  ridInput : Byte
  ridFeatReply : Byte
  ridCfgReply : Byte
  connBatt : Byte
  sendIntervalMs : Nat
  chConfig : Byte
  chFeature : Byte
  cfgSelOff : Nat
  featSelOff : Nat
  cmdLenMax : Nat
  cfgCodes : CfgTable
  featCodes : FeatTable
  featAcks : FeatTable
  /-- `ACK[default]`: the ACK byte of an unknown feature selector (43_feature_channel.md R153). -/
  ackDefault : Byte
  spiReadMax : Nat
  vfFill : Byte
  flashMap : List FlashEntry
  fwMajor : Byte
  fwMinor : Byte
  ctrlType : Byte
  idTop : IdBytes
  vendorFlag : Byte
  rumbleHdr : Byte
  rumbleType : Byte
  deriving DecidableEq, Repr

end Sys2Proof
end

