-- ==== Sys2Proof/Syntax.lean ====
section
/-! DEFINITION. The instructions of SPPB, one constructor for each row of spec/opcode_table.json, and the words its
ports carry. SPPB fetches no instructions: its instructions are its input events and the command words and frames
inside them (00_scope.md R3). -/

namespace Sys2Proof

/-- The field block FB[0..6] of a serial frame (30_encoding.md R70). -/
structure FieldBlock where
  buttonsLo : Byte
  buttonsHi : Byte
  dir : Byte
  axisLX : Byte
  axisLY : Byte
  axisRX : Byte
  axisRY : Byte
  deriving DecidableEq, Repr

/-- The 8-byte haptic payload r[0..7] (45_rumble_relay.md R172). -/
structure Haptic where
  r0 : Byte
  r1 : Byte
  r2 : Byte
  r3 : Byte
  r4 : Byte
  r5 : Byte
  r6 : Byte
  r7 : Byte
  deriving DecidableEq, Repr

/-- What a host command word asks for, with its operands (30_encoding.md R75 to R89): the commands that have a code,
the two default rows, which keep the selector they answer, and the ignored word, which keeps its channel byte. -/
inductive HostCommand where
  | identify
  | handshake
  | baud
  | disableTimeout
  | enableTimeout
  | cfgDefault (sel : Byte)
  | getState
  | pair
  | deviceInfo
  | setMode (arg : Byte)
  | triggerButtons
  | setShipment
  | spiRead (addr : Addr) (size : Byte)
  | setNfcIrConfig
  | setNfcIrState
  | setPlayerLights (arg : Byte)
  | getPlayerLights
  | setHomeLight
  | toggleImu (arg : Byte)
  | setImuSensitivity
  | enableVibration (arg : Byte)
  | readImu
  | getVoltage
  | legacyUnknown
  | featDefault (sel : Byte)
  | ignored (channel : Byte)
  deriving DecidableEq, Repr

/-- The rows of spec/opcode_table.json. A command row is the CmdIn of a word with that row's key (42_config_channel.md
R122); a frame row is the ByteIn events of the frame's bytes, in order, at one time (30_encoding.md R93 `byte`);
RUMBLE_FRAME is the sending of the frame of 45_rumble_relay.md R172. -/
inductive Instr where
  | cfgIdentify (now : Time)
  | cfgHandshake (now : Time)
  | cfgBaud (now : Time)
  | cfgDisableTimeout (now : Time)
  | cfgEnableTimeout (now : Time)
  | cfgDefault (sel : Byte) (now : Time)
  | featGetState (now : Time)
  | featPair (now : Time)
  | featDeviceInfo (now : Time)
  | featSetMode (arg : Byte) (now : Time)
  | featTriggerButtons (now : Time)
  | featSetShipment (now : Time)
  | featSpiRead (addr : Addr) (size : Byte) (now : Time)
  | featSetNfcIrConfig (now : Time)
  | featSetNfcIrState (now : Time)
  | featSetPlayerLights (arg : Byte) (now : Time)
  | featGetPlayerLights (now : Time)
  | featSetHomeLight (now : Time)
  | featToggleImu (arg : Byte) (now : Time)
  | featSetImuSensitivity (now : Time)
  | featReadImu (now : Time)
  | featEnableVibration (arg : Byte) (now : Time)
  | featGetVoltage (now : Time)
  | featLegacyUnknown (now : Time)
  | featDefault (sel : Byte) (now : Time)
  | cmdIgnored (channel : Byte) (now : Time)
  | frameLegacy8 (fb : FieldBlock) (now : Time)
  | frameLenpfx (version : Byte) (fb : FieldBlock) (extra : List Byte) (trailer : Byte) (now : Time)
  | rumbleFrame (r : Haptic)
  | evPowerOn (idLow : IdBytes)
  | evLinkReset
  | evByteIn (b : Byte) (now : Time)
  | evCmdIn (c : List Byte) (now : Time)
  | evTick (now : Time) (txReady suspended : Bool)
  | evRumbleIn (r : Haptic) (now : Time)
  deriving DecidableEq, Repr

/-- One word the host puts before SPPB: an event of 10_state.md R15 with its operands. A serial read carries one byte
or more, in arrival order; a host command stands either as the event (`cmdIn`) or as the command word to be told by
its key (`cmdWord`); `serialOut` carries the bytes of an outgoing frame, for the table's row RUMBLE_FRAME. -/
inductive PortWord where
  | powerOn (idLow : IdBytes)
  | linkReset
  | serialIn (b : Byte) (more : List Byte) (now : Time)
  | cmdIn (c : List Byte) (now : Time)
  | cmdWord (c : List Byte) (now : Time)
  | tick (now : Time) (txReady suspended : Bool)
  | rumbleIn (r : Haptic) (now : Time)
  | serialOut (bytes : List Byte)
  deriving DecidableEq, Repr

end Sys2Proof
end

