-- ==== Sys2Proof/Machine/Configuration.lean ====
section
/-! DEFINITION. The reference configuration REFCFG, the constraints on a configuration (00_scope.md R8) and the
look-ups in its tables. -/

namespace Sys2Proof

/-- The code of a configuration command (30_encoding.md R86). -/
def CfgTable.at (t : CfgTable) : CfgCmd → Byte
  | .identify => t.identify
  | .handshake => t.handshake
  | .baud => t.baud
  | .disableTimeout => t.disableTimeout
  | .enableTimeout => t.enableTimeout

/-- The byte a feature table holds for a command (30_encoding.md R80, R86). -/
def FeatTable.at (t : FeatTable) : FeatCmd → Byte
  | .getState => t.getState
  | .pair => t.pair
  | .deviceInfo => t.deviceInfo
  | .setMode => t.setMode
  | .triggerButtons => t.triggerButtons
  | .setShipment => t.setShipment
  | .spiRead => t.spiRead
  | .setNfcIrConfig => t.setNfcIrConfig
  | .setNfcIrState => t.setNfcIrState
  | .setPlayerLights => t.setPlayerLights
  | .getPlayerLights => t.getPlayerLights
  | .setHomeLight => t.setHomeLight
  | .toggleImu => t.toggleImu
  | .setImuSensitivity => t.setImuSensitivity
  | .enableVibration => t.enableVibration
  | .readImu => t.readImu
  | .getVoltage => t.getVoltage
  | .legacyUnknown => t.legacyUnknown

/-- The configuration commands in the order of 30_encoding.md R86. -/
def CfgCmd.all : List CfgCmd :=
  [.identify, .handshake, .baud, .disableTimeout, .enableTimeout]

/-- The feature commands in the order of 30_encoding.md R86. -/
def FeatCmd.all : List FeatCmd :=
  [.getState, .pair, .deviceInfo, .setMode, .triggerButtons, .setShipment, .spiRead,
   .setNfcIrConfig, .setNfcIrState, .setPlayerLights, .getPlayerLights, .setHomeLight,
   .toggleImu, .setImuSensitivity, .enableVibration, .readImu, .getVoltage, .legacyUnknown]

/-- `DIR_MAP`: the dpad flags of a direction code, neutral where the map has no row (30_encoding.md R72). -/
def Params.dirFlags (p : Params) (code : Byte) : DirFlags :=
  match p.dirMap.find? (fun e => e.code == code) with
  | some e => e.flags
  | none => { up := false, down := false, left := false, right := false }

/-- `CAL.min ≤ CAL.center ≤ CAL.max` (10_state.md R40). -/
def Calibration.ordered (c : Calibration) : Bool :=
  decide (c.min.toNat ≤ c.center.toNat) && decide (c.center.toNat ≤ c.max.toNat)

/-- One `FLASH_MAP` entry: the low 8 bits of the bank are zero and the blob fits in it (20_memory.md R49). -/
def FlashEntry.aligned (e : FlashEntry) : Bool :=
  decide (e.bank.toNat % vfBankSize = 0) && (e.bytes.drop vfBankSize).isEmpty

/-- The constraints of 00_scope.md R8. A parameter set that breaks one "is not an instance of SPPB"
(60_exceptions.md R177). Direction code 0x00 is neutral in every configuration (93_implementation_defined.md I8). -/
def Params.valid (p : Params) : Bool :=
  [decide p.btnMap.Nodup,
   decide (p.btnMap.length = 14),
   decide (11 ≤ p.fdMinFrame),
   decide (p.fdMinFrame ≤ p.fdBufCap),
   decide (p.fdBufCap ≤ 259),
   p.dirFlags 0x00 == { up := false, down := false, left := false, right := false },
   p.cal.leftX.ordered,
   p.cal.leftY.ordered,
   p.cal.rightX.ordered,
   p.cal.rightY.ordered,
   decide (1 ≤ p.sendIntervalMs),
   p.chConfig != p.chFeature,
   decide (p.cfgSelOff < p.cmdLenMax),
   decide (p.featSelOff + 5 < p.cmdLenMax),
   decide (CfgCmd.all.map p.cfgCodes.at).Nodup,
   decide (FeatCmd.all.map p.featCodes.at).Nodup,
   decide (p.spiReadMax + 20 ≤ p.reportLen),
   p.flashMap.all FlashEntry.aligned,
   decide (p.flashMap.map FlashEntry.bank).Nodup].all id

/-- REFCFG `DIR_MAP`: clockwise from up = 0x01 (30_encoding.md R72). -/
def refDirMap : List DirEntry :=
  [⟨0x01, ⟨true, false, false, false⟩⟩,
   ⟨0x02, ⟨true, false, false, true⟩⟩,
   ⟨0x03, ⟨false, false, false, true⟩⟩,
   ⟨0x04, ⟨false, true, false, true⟩⟩,
   ⟨0x05, ⟨false, true, false, false⟩⟩,
   ⟨0x06, ⟨false, true, true, false⟩⟩,
   ⟨0x07, ⟨false, false, true, false⟩⟩,
   ⟨0x08, ⟨true, false, true, false⟩⟩]

/-- REFCFG `BTN_MAP` (30_encoding.md R71). -/
def refBtnMap : List Button :=
  [.y, .b, .a, .x, .l, .r, .zl, .zr, .minus, .plus, .lStick, .rStick, .home, .capture]

/-- REFCFG `CODE` of the configuration channel (30_encoding.md R86). -/
def refCfgCodes : CfgTable :=
  { identify := 0x01, handshake := 0x02, baud := 0x03, disableTimeout := 0x04, enableTimeout := 0x05 }

/-- REFCFG `CODE` of the feature channel (30_encoding.md R86). -/
def refFeatCodes : FeatTable :=
  { getState := 0x00, pair := 0x01, deviceInfo := 0x02, setMode := 0x03, triggerButtons := 0x04,
    setShipment := 0x08, spiRead := 0x10, setNfcIrConfig := 0x21, setNfcIrState := 0x22,
    setPlayerLights := 0x30, getPlayerLights := 0x31, setHomeLight := 0x38, toggleImu := 0x40,
    setImuSensitivity := 0x41, enableVibration := 0x48, readImu := 0x43, getVoltage := 0x50,
    legacyUnknown := 0x33 }

/-- REFCFG `ACK`: 0x82 get-device-info, 0x90 spi-read, 0xB0 get-player-lights, 0x80 every other
(30_encoding.md R80). -/
def refFeatAcks : FeatTable :=
  { getState := 0x80, pair := 0x80, deviceInfo := 0x82, setMode := 0x80, triggerButtons := 0x80,
    setShipment := 0x80, spiRead := 0x90, setNfcIrConfig := 0x80, setNfcIrState := 0x80,
    setPlayerLights := 0x80, getPlayerLights := 0xB0, setHomeLight := 0x80, toggleImu := 0x80,
    setImuSensitivity := 0x80, enableVibration := 0x80, readImu := 0x80, getVoltage := 0x80,
    legacyUnknown := 0x80 }

/-- REFCFG `FLASH_MAP`: factory bank with byte i = i, user-calibration bank of 0xFF (20_memory.md R50). -/
def refFlashMap : List FlashEntry :=
  [⟨0x00006000, (List.range 256).map (BitVec.ofNat 8)⟩,
   ⟨0x00008000, List.replicate 256 0xFF⟩]

/-- REFCFG, the reference configuration of 00_scope.md R8. -/
def Params.refcfg : Params where
  sentinel := 0xAA
  frameFmt := .lenPfx
  fdBufCap := 64
  fdMinFrame := 11
  fdTimeoutMs := 20
  dirMap := refDirMap
  btnMap := refBtnMap
  axisMid := 0x8000
  cal := { leftX := ⟨0x100, 0x800, 0xF00⟩, leftY := ⟨0x100, 0x800, 0xF00⟩,
           rightX := ⟨0x000, 0x800, 0xFFF⟩, rightY := ⟨0x000, 0x800, 0xFFF⟩ }
  reportLen := 64
  ridInput := 0x30
  ridFeatReply := 0x21
  ridCfgReply := 0x81
  connBatt := 0x91
  sendIntervalMs := 5
  chConfig := 0x80
  chFeature := 0x01
  cfgSelOff := 1
  featSelOff := 10
  cmdLenMax := 64
  cfgCodes := refCfgCodes
  featCodes := refFeatCodes
  featAcks := refFeatAcks
  ackDefault := 0x80
  spiReadMax := 29
  vfFill := 0xFF
  flashMap := refFlashMap
  fwMajor := 0x03
  fwMinor := 0x48
  ctrlType := 0x03
  idTop := ⟨0x7C, 0xBB, 0x8A⟩
  vendorFlag := 0x01
  rumbleHdr := 0xBB
  rumbleType := 0x01

end Sys2Proof
end

