-- ==== Sys2Proof/Machine/State.lean ====
section
/-! DEFINITION. The state of SPPB: the fields of 10_state.md R17, beside them the configuration (00_scope.md R8), what
the output ports were driven with (R16) and the words the host still offers (R15). Plain data throughout. -/

namespace Sys2Proof.Machine

/-- The 14 button flags of InputState (10_state.md R18). -/
structure Buttons where
  y : Bool
  b : Bool
  a : Bool
  x : Bool
  l : Bool
  r : Bool
  zl : Bool
  zr : Bool
  minus : Bool
  plus : Bool
  lStick : Bool
  rStick : Bool
  home : Bool
  capture : Bool
  deriving DecidableEq, Repr

/-- InputState, one register of 14 + 4 + 64 bits (10_state.md R18). -/
structure InputState where
  btn : Buttons
  dpad : DirFlags
  lx : Half
  ly : Half
  rx : Half
  ry : Half
  deriving DecidableEq, Repr

/-- `fd_state` (10_state.md R23). COMPLETE is never held between events. -/
inductive FdState where
  | idle
  | syncing
  deriving DecidableEq, Repr

/-- The values of the observation-only output `fd_evt` (10_state.md R16; 40_frame_decoder.md R107). -/
inductive FdEvt where
  | none
  | frame
  | dropLen
  | dropTimeout
  | discard
  deriving DecidableEq, Repr

/-- One drive of an output port (10_state.md R16). -/
inductive Output where
  /-- `usb_tx`: one report the transport accepted (driven by Tick). -/
  | usbTx (report : List Byte)
  /-- `wake_req`: driven by every Tick. -/
  | wakeReq (on : Bool)
  /-- `serial_tx`: the bytes appended by one RumbleIn. -/
  | serialTx (bytes : List Byte)
  /-- `fd_evt`: driven once by every ByteIn. -/
  | fdEvt (evt : FdEvt)
  deriving DecidableEq, Repr

/-- The state `S` of 10_state.md R17 (the fields from `input` to `idLow`), with the configuration and the ports. -/
structure State where
  /-- The parameters; constant (00_scope.md R9). -/
  cfg : Params
  /-- InputState (R18). -/
  input : InputState
  /-- `fd_state` (R23). -/
  fdState : FdState
  /-- `fd_buf` (R24). -/
  fdBuf : List Byte
  /-- `fd_cnt` (R24). -/
  fdCnt : Nat
  /-- `fd_exp`; `none` is the spec's NONE (R25). -/
  fdExp : Option Nat
  /-- `fd_last_t` (R26). -/
  fdLastT : Time
  /-- `player_id` (R28). -/
  playerId : Byte
  /-- `input_mode` (R29). -/
  inputMode : Byte
  /-- `imu_en` (R30). -/
  imuEn : Bool
  /-- `vib_en` (R31). -/
  vibEn : Bool
  /-- `ready` (R32). -/
  ready : Bool
  /-- `initialized` (R33). -/
  initialized : Bool
  /-- `last_host_t` (R34). -/
  lastHostT : Time
  /-- `pr_valid` (R36). -/
  prValid : Bool
  /-- `pr_chan` (R36). -/
  prChan : Channel
  /-- `pr_payload` (R36). -/
  prPayload : List Byte
  /-- `last_sent_t` (R37). -/
  lastSentT : Time
  /-- `ctr` (R38). -/
  ctr : Byte
  /-- `snap_valid` (R39). -/
  snapValid : Bool
  /-- `snap` (R39). -/
  snap : List Byte
  /-- `ID_LOW[0..2]`, the draw of the last PowerOn (R41). -/
  idLow : IdBytes
  /-- What the output ports were driven with, oldest first (60_exceptions.md R192). -/
  outputs : List Output
  /-- The port words the host offers and SPPB has not taken, oldest first (60_exceptions.md R191). -/
  inbox : List PortWord
  deriving DecidableEq, Repr

/-- SPPB "raises no exception" and "a model of SPPB has no fault state and no stuck state" (60_exceptions.md R175,
R177): there is no fault to name, and nothing raises one. -/
inductive Fault where
  deriving DecidableEq, Repr

/-- Why bytes put on the output-frame port are no RUMBLE_FRAME (30_encoding.md R91). The decoder raises these. Safe:
SPPB receives no such frame, so no behaviour of it is cut off. -/
inductive DecodeError where
  /-- Not 11 bytes. -/
  | rumbleLength
  /-- Bytes 0 and 1 are not `RUMBLE_HDR`, `RUMBLE_TYPE`. -/
  | rumbleHeader
  /-- Byte 10 is not the 8-bit sum of bytes 0 to 9. -/
  | rumbleChecksum
  deriving DecidableEq, Repr

/-- Why a step gives no meaning. -/
inductive Refusal where
  /-- Raised by exec's arm of an instruction that has no meaning yet. Safe. No arm raises it. -/
  | notModelled (mnemonic : String)
  /-- Raised by step when the configuration breaks a constraint of 00_scope.md R8: "not an instance of SPPB"
  (60_exceptions.md R177). Safe: the spec itself refuses such a configuration. -/
  | badConfiguration
  /-- Raised by step when the word offered decodes to no instruction. Safe: only bytes on the model's output-frame port
  can raise it, and SPPB takes no input there. -/
  | undecodable (why : DecodeError)
  deriving DecidableEq, Repr

/-- All 14 buttons up. -/
def Buttons.none : Buttons :=
  { y := false, b := false, a := false, x := false, l := false, r := false, zl := false, zr := false,
    minus := false, plus := false, lStick := false, rStick := false, home := false, capture := false }

/-- The neutral InputState `IS_NEUTRAL` (10_state.md R19). -/
def InputState.neutral (p : Params) : InputState :=
  { btn := Buttons.none
    dpad := { up := false, down := false, left := false, right := false }
    lx := p.axisMid, ly := p.axisMid, rx := p.axisMid, ry := p.axisMid }

/-- SPPB right after a PowerOn (10_state.md R44; 70_reset_and_hazards.md R195), in the reference configuration.
DESIGN CHOICE, unsafe: `cfg` (log 1), `idLow`, the spec's test draw (log 2), and `prChan`, `prPayload`, `snap`, which
the spec leaves unspecified (log 3). -/
def State.reset : State where
  cfg := Params.refcfg
  input := InputState.neutral Params.refcfg
  fdState := .idle
  fdBuf := []
  fdCnt := 0
  fdExp := none
  fdLastT := 0
  playerId := 0x00
  inputMode := 0x00
  imuEn := false
  vibEn := false
  ready := false
  initialized := false
  lastHostT := 0
  prValid := false
  prChan := .cfg
  prPayload := []
  lastSentT := 0
  ctr := 0x00
  snapValid := false
  snap := List.replicate 64 0x00
  idLow := ⟨0x12, 0x34, 0x56⟩
  outputs := []
  inbox := []

end Sys2Proof.Machine
end

