-- ==== Sys2Proof/Machine/Operands.lean ====
section
/-! DEFINITION. The operand forms of SPPB: the bytes of a command word, the arguments it holds, and the fields of a
serial frame (30_encoding.md R70 to R78, R92). Nothing is sign-extended. -/

namespace Sys2Proof.Machine

/-- `cbyte(i)`: byte i of the command word, 0x00 past the word or past `CMD_LEN_MAX` (42_config_channel.md R122). -/
def cbyte (p : Params) (c : List Byte) (i : Nat) : Byte :=
  if i < p.cmdLenMax then c.getD i 0x00 else 0x00

/-- Four bytes, the least significant first, as a 32-bit address (30_encoding.md R77; 20_memory.md R56). -/
def addrOfBytes (b0 b1 b2 b3 : Byte) : Addr :=
  b0.zeroExtend 32 ||| b1.zeroExtend 32 <<< 8 ||| b2.zeroExtend 32 <<< 16 ||| b3.zeroExtend 32 <<< 24

/-- Byte k of an address, byte 0 the least significant: the inverse of `addrOfBytes`. -/
def addrByte (a : Addr) (k : Nat) : Byte := (a >>> (8 * k)).truncate 8

/-- The four bytes of an address in the order a command word carries them. -/
def addrBytes (a : Addr) : List Byte := [addrByte a 0, addrByte a 1, addrByte a 2, addrByte a 3]

/-- The configuration command a selector names, if any (42_config_channel.md R125). -/
def selectCfg (p : Params) (sel : Byte) : Option CfgCmd :=
  CfgCmd.all.find? (fun cmd => p.cfgCodes.at cmd == sel)

/-- The feature command a selector names, if any (43_feature_channel.md R133; the codes of 30_encoding.md R86).
DESIGN CHOICE (log 22): R86 names 18 codes, so in REFCFG 238 selectors name no command and take the default row, where
43_feature_channel.md R153 counts 237; the model follows R86 and the Encoding line of R153. -/
def selectFeat (p : Params) (sel : Byte) : Option FeatCmd :=
  FeatCmd.all.find? (fun cmd => p.featCodes.at cmd == sel)

/-- The configuration channel's command for a selector (42_config_channel.md R125). -/
def configCommand (p : Params) (sel : Byte) : HostCommand :=
  match selectCfg p sel with
  | some .identify => .identify
  | some .handshake => .handshake
  | some .baud => .baud
  | some .disableTimeout => .disableTimeout
  | some .enableTimeout => .enableTimeout
  | none => .cfgDefault sel

/-- The feature channel's command for the selector at `FEAT_SEL_OFF`, with the arguments that stand after it
(43_feature_channel.md R133; 30_encoding.md R77). -/
def featureCommand (p : Params) (c : List Byte) : HostCommand :=
  let s := p.featSelOff
  let arg := cbyte p c (s + 1)
  match selectFeat p (cbyte p c s) with
  | some .getState => .getState
  | some .pair => .pair
  | some .deviceInfo => .deviceInfo
  | some .setMode => .setMode arg
  | some .triggerButtons => .triggerButtons
  | some .setShipment => .setShipment
  | some .spiRead =>
      .spiRead (addrOfBytes (cbyte p c (s + 1)) (cbyte p c (s + 2)) (cbyte p c (s + 3)) (cbyte p c (s + 4)))
        (cbyte p c (s + 5))
  | some .setNfcIrConfig => .setNfcIrConfig
  | some .setNfcIrState => .setNfcIrState
  | some .setPlayerLights => .setPlayerLights arg
  | some .getPlayerLights => .getPlayerLights
  | some .setHomeLight => .setHomeLight
  | some .toggleImu => .toggleImu arg
  | some .setImuSensitivity => .setImuSensitivity
  | some .enableVibration => .enableVibration arg
  | some .readImu => .readImu
  | some .getVoltage => .getVoltage
  | some .legacyUnknown => .legacyUnknown
  | none => .featDefault (cbyte p c s)

/-- The command a command word asks for (30_encoding.md R87). It is total: an unknown selector takes its channel's
default row (R88), an unknown channel id is the ignored word (R89). -/
def hostCommand (p : Params) (c : List Byte) : HostCommand :=
  if cbyte p c 0 = p.chConfig then configCommand p (cbyte p c p.cfgSelOff)
  else if cbyte p c 0 = p.chFeature then featureCommand p c
  else .ignored (cbyte p c 0)

/-- `Expand(v) = (v << 8) | v` (40_frame_decoder.md R106). -/
def expand (v : Byte) : Half := v.zeroExtend 16 <<< 8 ||| v.zeroExtend 16

/-- `mask = (FB[1] << 8) | FB[0]` (30_encoding.md R71). -/
def buttonMask (fb : FieldBlock) : Half :=
  fb.buttonsHi.zeroExtend 16 <<< 8 ||| fb.buttonsLo.zeroExtend 16

/-- A flag by its button's name. -/
def Buttons.get (t : Buttons) : Button → Bool
  | .y => t.y
  | .b => t.b
  | .a => t.a
  | .x => t.x
  | .l => t.l
  | .r => t.r
  | .zl => t.zl
  | .zr => t.zr
  | .minus => t.minus
  | .plus => t.plus
  | .lStick => t.lStick
  | .rStick => t.rStick
  | .home => t.home
  | .capture => t.capture

/-- The flags that a rule gives by name. -/
def Buttons.ofNames (f : Button → Bool) : Buttons :=
  { y := f .y, b := f .b, a := f .a, x := f .x, l := f .l, r := f .r, zl := f .zl, zr := f .zr,
    minus := f .minus, plus := f .plus, lStick := f .lStick, rStick := f .rStick,
    home := f .home, capture := f .capture }

/-- Button translation: `btn[BTN_MAP[k]] <- mask[k]` for k in 0..13 (40_frame_decoder.md R104). The flag of a name is
the mask bit at that name's place in `BTN_MAP`; bits 14 and 15 have no place. -/
def buttonsOf (p : Params) (mask : Half) : Buttons :=
  Buttons.ofNames fun name =>
    if p.btnMap.idxOf name < 14 then mask.getLsbD (p.btnMap.idxOf name) else false

/-- `DecodeFields` (40_frame_decoder.md R103). -/
def decodeFields (p : Params) (fb : FieldBlock) : InputState :=
  { btn := buttonsOf p (buttonMask fb)
    dpad := p.dirFlags fb.dir
    lx := expand fb.axisLX
    ly := expand fb.axisLY
    rx := expand fb.axisRX
    ry := expand fb.axisRY }

/-- The frame byte at which the field block starts: 1 in LEGACY8, 3 in LENPFX (30_encoding.md R70). -/
def fieldOffset : FrameFmt → Nat
  | .legacy8 => 1
  | .lenPfx => 3

/-- `FieldBlock(buf)`: `buf[1..7]` in LEGACY8, `buf[3..9]` in LENPFX (40_frame_decoder.md R102). A buffer too short for
it, which no run reaches, reads 0x00 (log 16). -/
def fieldBlock (p : Params) (buf : List Byte) : FieldBlock :=
  let o := fieldOffset p.frameFmt
  { buttonsLo := buf.getD o 0x00
    buttonsHi := buf.getD (o + 1) 0x00
    dir := buf.getD (o + 2) 0x00
    axisLX := buf.getD (o + 3) 0x00
    axisLY := buf.getD (o + 4) 0x00
    axisRX := buf.getD (o + 5) 0x00
    axisRY := buf.getD (o + 6) 0x00 }

/-- The bytes of a field block in frame order. -/
def fieldBytes (fb : FieldBlock) : List Byte :=
  [fb.buttonsLo, fb.buttonsHi, fb.dir, fb.axisLX, fb.axisLY, fb.axisRX, fb.axisRY]

/-- The legacy input frame (30_encoding.md R68). -/
def legacyFrame (p : Params) (fb : FieldBlock) : List Byte := p.sentinel :: fieldBytes fb

/-- The bytes of a length-prefixed input frame after its sentinel: version, L, payload, trailer
(30_encoding.md R69). -/
def lenpfxTail (version : Byte) (fb : FieldBlock) (extra : List Byte) (trailer : Byte) : List Byte :=
  version :: BitVec.ofNat 8 (7 + extra.length) :: (fieldBytes fb ++ extra ++ [trailer])

/-- The length-prefixed input frame (30_encoding.md R69). -/
def lenpfxFrame (p : Params) (version : Byte) (fb : FieldBlock) (extra : List Byte) (trailer : Byte) :
    List Byte :=
  p.sentinel :: lenpfxTail version fb extra trailer

/-- The 8 payload bytes of a rumble in order. -/
def hapticBytes (r : Haptic) : List Byte := [r.r0, r.r1, r.r2, r.r3, r.r4, r.r5, r.r6, r.r7]

/-- The first 10 bytes of a rumble frame (30_encoding.md R91). -/
def rumbleBody (p : Params) (r : Haptic) : List Byte := p.rumbleHdr :: p.rumbleType :: hapticBytes r

/-- The 8-bit truncating sum of a byte sequence (30_encoding.md R91). -/
def byteSum : List Byte → Byte
  | [] => 0
  | b :: bs => b + byteSum bs

/-- The 11-byte rumble frame (30_encoding.md R91; 45_rumble_relay.md R172). -/
def rumbleFrameBytes (p : Params) (r : Haptic) : List Byte :=
  rumbleBody p r ++ [byteSum (rumbleBody p r)]

end Sys2Proof.Machine
end

