-- ==== Sys2Proof/Machine/Flash.lean ====
section
/-! DEFINITION. The Virtual Flash (20_memory.md): its one read, and its contents as a canonical list of cells. Nothing
writes it at run time (R48), so `Memory.write` only builds the image of a configuration. -/

namespace Sys2Proof.Machine

/-- The bank of an address: its low 8 bits cleared (20_memory.md R51). -/
def bankOf (a : Addr) : Addr := a &&& 0xFFFFFF00

/-- The offset of an address in its bank: its low 8 bits (20_memory.md R51). -/
def offsetOf (a : Addr) : Nat := (a.truncate 8 : Byte).toNat

/-- `Lookup(bank)`; `none` is ABSENT (20_memory.md R52). -/
def flashLookup (p : Params) (bank : Addr) : Option FlashEntry :=
  p.flashMap.find? (fun e => e.bank == bank)

/-- Byte `k` of a bank's entry: the blob's byte, `VF_FILL` past the blob and where the bank is absent
(20_memory.md R53). -/
def blobByte (p : Params) (e : Option FlashEntry) (k : Nat) : Byte :=
  match e with
  | none => p.vfFill
  | some e => if k < e.bytes.length then e.bytes.getD k p.vfFill else p.vfFill

/-- `VFRead(a, n)`: one look-up from the start address, then n bytes; it never fails and never goes on into the next
bank (20_memory.md R53, R54). -/
def vfRead (p : Params) (a : Addr) (n : Nat) : List Byte :=
  let e := flashLookup p (bankOf a)
  (List.range n).map fun i => blobByte p e (offsetOf a + i)

/-- The byte at one address of the flash: `VFRead(a, 1)`. -/
def flashByte (p : Params) (a : Addr) : Byte := blobByte p (flashLookup p (bankOf a)) (offsetOf a)

/-- The flash as cells: addresses strictly rising, no cell equal to what an unlisted address reads as. -/
abbrev Memory := List Host.Cell

/-- A byte of the memory; an unlisted address reads `fill` (`VF_FILL` for the flash, 20_memory.md R53). -/
def Memory.read (fill : Byte) : Memory → Nat → Byte
  | [], _ => fill
  | (k, v) :: m, a => if k = a then v else Memory.read fill m a

/-- Writing a byte, keeping the canonical form: writing `fill` unlists the address. -/
def Memory.write (fill : Byte) : Memory → Nat → Byte → Memory
  | [], a, v => if v = fill then [] else [(a, v)]
  | (k, w) :: m, a, v =>
    if a < k then (if v = fill then (k, w) :: m else (a, v) :: (k, w) :: m)
    else if a = k then (if v = fill then m else (a, v) :: m)
    else (k, w) :: Memory.write fill m a v

/-- Every listed address is above `a`, rising, and no cell holds `fill`. -/
def Memory.wfAbove (fill : Byte) (low : Nat) : Memory → Bool
  | [] => true
  | (k, v) :: m => decide (low ≤ k) && v != fill && Memory.wfAbove fill (k + 1) m

/-- The canonical form. -/
def Memory.wf (fill : Byte) (m : Memory) : Bool := Memory.wfAbove fill 0 m

/-- Writing a byte sequence at rising addresses. -/
def Memory.load (fill : Byte) : Memory → Nat → List Byte → Memory
  | m, _, [] => m
  | m, a, b :: bs => Memory.load fill (Memory.write fill m a b) (a + 1) bs

/-- The flash's contents as cells: every blob of `FLASH_MAP` at its bank. -/
def flashImage (p : Params) : Memory :=
  p.flashMap.foldl (fun m e => Memory.load p.vfFill m e.bank.toNat e.bytes) []

end Sys2Proof.Machine
end

