-- ==== Sys2Proof/Machine/Flags.lean ====
section
/-! DEFINITION. The tests SPPB makes on its registers and operands. It has no condition codes and computes no flag as a
side effect (10_state.md R42); what stands here are its comparisons: elapsed times, boolean arguments, `Same`. -/

namespace Sys2Proof.Machine

/-- `elapsed(t) = (now - t) mod 2^32` (00_scope.md R7). -/
def elapsed (now t : Time) : Nat := (now - t).toNat

/-- The inter-byte gap times out: SYNCING, and strictly more than `FD_TIMEOUT_MS` (40_frame_decoder.md R97). -/
def gapTimedOut (s : State) (now : Time) : Bool :=
  s.fdState == .syncing && decide (s.cfg.fdTimeoutMs < elapsed now s.fdLastT)

/-- A Tick is due: at least `SEND_INTERVAL_MS` since the last send (44_report_scheduler.md R159). -/
def due (s : State) (now : Time) : Bool := decide (s.cfg.sendIntervalMs ≤ elapsed now s.lastSentT)

/-- A boolean argument is `arg ≠ 0x00` (43_feature_channel.md R147, R149). -/
def argFlag (arg : Byte) : Bool := arg != 0x00

/-- The length of a length-prefixed frame is accepted: `FD_MIN_FRAME ≤ total ≤ FD_BUF_CAP`
(40_frame_decoder.md R100). -/
def lengthAccepted (p : Params) (total : Nat) : Bool :=
  decide (p.fdMinFrame ≤ total) && decide (total ≤ p.fdBufCap)

/-- `Same(p, q)`: every byte i in 0..n-1 but byte 1, the counter, is equal (41_report_builder.md R119; 90_conflicts.md
C7). -/
def same (n : Nat) (q r : List Byte) : Bool :=
  (List.range n).all fun i => i == 1 || q.getD i 0x00 == r.getD i 0x00

end Sys2Proof.Machine
end

