-- ==== Sys2Proof/Machine/Reports.lean ====
section
/-! DEFINITION. The report builder (41_report_builder.md) and the payloads and frames of replies (30_encoding.md R79 to
R85). Combinational: it reads the state and writes none (R118). -/

namespace Sys2Proof.Machine

/-- `clamp(v, lo, hi) = min(max(v, lo), hi)` (00_scope.md R10). -/
def clamp (v lo hi : Wire) : Wire :=
  let raised := if v < lo then lo else v
  if hi < raised then hi else raised

/-- The raw 16-bit sample in the 12-bit wire domain: `raw >> 4` (41_report_builder.md R111). -/
def wireOf (raw : Half) : Wire := (raw >>> 4).truncate 12

/-- `ScaleX` (41_report_builder.md R111). -/
def scaleX (raw : Half) (c : Calibration) : Wire := clamp (wireOf raw) c.min c.max

/-- `ScaleY`: the flip comes before the clamp (41_report_builder.md R112; 90_conflicts.md C4). -/
def scaleY (raw : Half) (c : Calibration) : Wire := clamp (0xFFF - wireOf raw) c.min c.max

/-- `Pack12(x, y)` (41_report_builder.md R114). -/
def pack12 (x y : Wire) : List Byte :=
  [x.truncate 8,
   (y.truncate 4 : BitVec 4).zeroExtend 8 <<< 4 ||| ((x >>> 8).truncate 4 : BitVec 4).zeroExtend 8,
   (y >>> 4).truncate 8]

/-- One flag in its bit of a byte. -/
def flagBit (flag : Bool) (k : Nat) : Byte := if flag then 1 <<< k else 0

/-- Input-report byte 3, the right buttons (41_report_builder.md R115). -/
def buttonByte3 (t : Buttons) : Byte :=
  flagBit t.y 0 ||| flagBit t.x 1 ||| flagBit t.b 2 ||| flagBit t.a 3 ||| flagBit t.r 6 ||| flagBit t.zr 7

/-- Input-report byte 4, the shared buttons (41_report_builder.md R115). -/
def buttonByte4 (t : Buttons) : Byte :=
  flagBit t.minus 0 ||| flagBit t.plus 1 ||| flagBit t.rStick 2 ||| flagBit t.lStick 3 ||| flagBit t.home 4
    ||| flagBit t.capture 5

/-- Input-report byte 5, the dpad and the left buttons (41_report_builder.md R115). -/
def buttonByte5 (t : Buttons) (d : DirFlags) : Byte :=
  flagBit d.down 0 ||| flagBit d.up 1 ||| flagBit d.right 2 ||| flagBit d.left 3 ||| flagBit t.l 6
    ||| flagBit t.zl 7

/-- A report of n bytes: the bytes given, then 0x00. Bytes past n are dropped, which no configuration of 25-byte
reports or longer needs (log 15). -/
def fillReport (n : Nat) (bytes : List Byte) : List Byte :=
  (bytes ++ List.replicate (n - bytes.length) 0x00).take n

/-- The bytes of an input report before its trailer (30_encoding.md R81). -/
def inputHead (p : Params) (is : InputState) (k : Byte) : List Byte :=
  [p.ridInput, k, p.connBatt, buttonByte3 is.btn, buttonByte4 is.btn, buttonByte5 is.btn is.dpad]
    ++ pack12 (scaleX is.lx p.cal.leftX) (scaleY is.ly p.cal.leftY)
    ++ pack12 (scaleX is.rx p.cal.rightX) (scaleY is.ry p.cal.rightY)

/-- `BuildInput(IS, k)` (41_report_builder.md R116). -/
def buildInput (p : Params) (is : InputState) (k : Byte) : List Byte := fillReport p.reportLen (inputHead p is k)

/-- `InputSection(IS) = BuildInput(IS, 0)[2..12]` (41_report_builder.md R117). -/
def inputSection (p : Params) (is : InputState) : List Byte := ((buildInput p is 0).drop 2).take 11

/-- `DEVID`, the device identity, top byte of the id first (10_state.md R41). -/
def devId (p : Params) (low : IdBytes) : List Byte :=
  [p.fwMajor, p.fwMinor, p.ctrlType, p.idTop.b0, p.idTop.b1, p.idTop.b2, low.b0, low.b1, low.b2, p.vendorFlag]

/-- The identify payload, bottom byte of the id first (42_config_channel.md R126); `IdentPayload()` of
44_report_scheduler.md R162 is the same with `sel = CODE[IDENTIFY]`. -/
def identPayload (p : Params) (low : IdBytes) : List Byte :=
  [p.cfgCodes.identify, 0x00, p.ctrlType, low.b2, low.b1, low.b0, p.idTop.b2, p.idTop.b1, p.idTop.b0]

/-- `GenAck(cmd) = [ACK[cmd], sel]`; the selector of a named command is its code (43_feature_channel.md R134). -/
def genAck (p : Params) (cmd : FeatCmd) : List Byte := [p.featAcks.at cmd, p.featCodes.at cmd]

/-- `FrameReply(chan, p)`, with the InputState and the counter of the moment it is sent
(44_report_scheduler.md R164). -/
def frameReply (s : State) : Channel → List Byte → List Byte
  | .cfg, payload => fillReport s.cfg.reportLen (s.cfg.ridCfgReply :: payload)
  | .feat, payload =>
    fillReport s.cfg.reportLen (s.cfg.ridFeatReply :: s.ctr :: (inputSection s.cfg s.input ++ payload))

end Sys2Proof.Machine
end

