-- ==== Sys2Proof/Machine/Ops.lean ====
section
/-! DEFINITION. The named operations over SPPB's registers and ports, shared by the meanings. Memory's one operation,
VFRead, stands in Machine/Flash.lean. TAKING AN EXCEPTION AND RETURNING FROM ONE: SPPB has neither (60_exceptions.md
R175, R178, R179), so no operation stands for them. -/

namespace Sys2Proof.Machine

/-- Driving an output port (10_state.md R16). -/
def drive (o : Output) (s : State) : State := { s with outputs := s.outputs ++ [o] }

/-- `SetPending(chan, p)`; a reply still pending is replaced (42_config_channel.md R123). -/
def setPending (chan : Channel) (payload : List Byte) (s : State) : State :=
  { s with prValid := true, prChan := chan, prPayload := payload }

/-- `last_host_t <- now`, on every CmdIn of a recognised channel (42_config_channel.md R122; 10_state.md R34). -/
def touchHost (now : Time) (s : State) : State := { s with lastHostT := now }

/-- The end of every CmdIn of a recognised channel: the timestamp, then the reply (42_config_channel.md R122). -/
def queueReply (chan : Channel) (payload : List Byte) (now : Time) (s : State) : State :=
  setPending chan payload (touchHost now s)

/-- `SessionDefaults()` (70_reset_and_hazards.md R196). -/
def sessionDefaults (s : State) : State :=
  { s with playerId := 0x00, inputMode := 0x00, imuEn := false, vibEn := false, ready := false,
           initialized := false, lastHostT := 0 }

/-- `ResetDecoder()` (40_frame_decoder.md R96). -/
def resetDecoder (s : State) : State :=
  { s with fdState := .idle, fdBuf := [], fdCnt := 0, fdExp := none }

/-- `Send(r, now)`: the report on `usb_tx`, then `last_sent_t` and `ctr` (44_report_scheduler.md R163). -/
def sendReport (report : List Byte) (now : Time) (s : State) : State :=
  { drive (.usbTx report) s with lastSentT := now, ctr := s.ctr + 1 }

end Sys2Proof.Machine
end

