-- ==== Sys2Proof/Machine/ConfigChannel.lean ====
section
/-! DEFINITION. The configuration channel (42_config_channel.md R124 to R131). A configuration reply is `[sel]`, where
the selector of a named command is its code, but for identify (30_encoding.md R79). Bytes after the selector are
ignored. -/

namespace Sys2Proof.Machine

/-- CFG_IDENTIFY (42_config_channel.md R126). -/
def execCfgIdentify (now : Time) (s : State) : Host.Outcome State Fault Refusal :=
  .next (queueReply .cfg (identPayload s.cfg s.idLow) now s)

/-- CFG_HANDSHAKE (42_config_channel.md R127). -/
def execCfgHandshake (now : Time) (s : State) : Host.Outcome State Fault Refusal :=
  .next (queueReply .cfg [s.cfg.cfgCodes.handshake] now s)

/-- CFG_BAUD (42_config_channel.md R128). -/
def execCfgBaud (now : Time) (s : State) : Host.Outcome State Fault Refusal :=
  .next (queueReply .cfg [s.cfg.cfgCodes.baud] now s)

/-- CFG_DISABLE_TIMEOUT: "the single transition that flips SessionState.ready from false to true"
(42_config_channel.md R129). -/
def execCfgDisableTimeout (now : Time) (s : State) : Host.Outcome State Fault Refusal :=
  .next (queueReply .cfg [s.cfg.cfgCodes.disableTimeout] now { s with ready := true })

/-- CFG_ENABLE_TIMEOUT: `ready` is not cleared (42_config_channel.md R130). -/
def execCfgEnableTimeout (now : Time) (s : State) : Host.Outcome State Fault Refusal :=
  .next (queueReply .cfg [s.cfg.cfgCodes.enableTimeout] now s)

/-- CFG_DEFAULT (42_config_channel.md R131). -/
def execCfgDefault (sel : Byte) (now : Time) (s : State) : Host.Outcome State Fault Refusal :=
  .next (queueReply .cfg [sel] now s)

/-- CMD_IGNORED: "no session register, no `last_host_t`, no pending-reply change" (42_config_channel.md R124;
30_encoding.md R89). -/
def execCmdIgnored (_channel : Byte) (_now : Time) (s : State) : Host.Outcome State Fault Refusal :=
  .next s

end Sys2Proof.Machine
end

