-- ==== Sys2Proof/Machine/FeatureChannel.lean ====
section
/-! DEFINITION. The feature channel (43_feature_channel.md R133 to R153). Every command queues a reply, the generic
acknowledgment `[ACK[cmd], sel]` where its rule gives no other (R134). -/

namespace Sys2Proof.Machine

/-- The CmdIn of a feature command whose reply is the generic acknowledgment (43_feature_channel.md R134). -/
def acknowledge (cmd : FeatCmd) (now : Time) (s : State) : State :=
  queueReply .feat (genAck s.cfg cmd) now s

/-- FEAT_GET_STATE: the controller state reaches the host in the reply report, not in the payload
(43_feature_channel.md R135). -/
def execFeatGetState (now : Time) (s : State) : Host.Outcome State Fault Refusal :=
  .next (acknowledge .getState now s)

/-- FEAT_PAIR: no pairing state exists (43_feature_channel.md R136). -/
def execFeatPair (now : Time) (s : State) : Host.Outcome State Fault Refusal :=
  .next (acknowledge .pair now s)

/-- FEAT_TRIGGER_BUTTONS: no elapsed-time data is returned (43_feature_channel.md R139). -/
def execFeatTriggerButtons (now : Time) (s : State) : Host.Outcome State Fault Refusal :=
  .next (acknowledge .triggerButtons now s)

/-- FEAT_SET_SHIPMENT: no shipment state exists (43_feature_channel.md R140). -/
def execFeatSetShipment (now : Time) (s : State) : Host.Outcome State Fault Refusal :=
  .next (acknowledge .setShipment now s)

/-- FEAT_SET_NFC_IR_CONFIG: SPPB has no NFC/IR unit (43_feature_channel.md R142). -/
def execFeatSetNfcIrConfig (now : Time) (s : State) : Host.Outcome State Fault Refusal :=
  .next (acknowledge .setNfcIrConfig now s)

/-- FEAT_SET_NFC_IR_STATE (43_feature_channel.md R143). -/
def execFeatSetNfcIrState (now : Time) (s : State) : Host.Outcome State Fault Refusal :=
  .next (acknowledge .setNfcIrState now s)

/-- FEAT_SET_HOME_LIGHT: SPPB drives no light (43_feature_channel.md R146). -/
def execFeatSetHomeLight (now : Time) (s : State) : Host.Outcome State Fault Refusal :=
  .next (acknowledge .setHomeLight now s)

/-- FEAT_SET_IMU_SENSITIVITY (43_feature_channel.md R148). -/
def execFeatSetImuSensitivity (now : Time) (s : State) : Host.Outcome State Fault Refusal :=
  .next (acknowledge .setImuSensitivity now s)

/-- FEAT_READ_IMU: no register data is returned (43_feature_channel.md R150). -/
def execFeatReadImu (now : Time) (s : State) : Host.Outcome State Fault Refusal :=
  .next (acknowledge .readImu now s)

/-- FEAT_GET_VOLTAGE: no voltage value is returned (43_feature_channel.md R151). -/
def execFeatGetVoltage (now : Time) (s : State) : Host.Outcome State Fault Refusal :=
  .next (acknowledge .getVoltage now s)

/-- FEAT_LEGACY_UNKNOWN (43_feature_channel.md R152). -/
def execFeatLegacyUnknown (now : Time) (s : State) : Host.Outcome State Fault Refusal :=
  .next (acknowledge .legacyUnknown now s)

/-- FEAT_DEVICE_INFO: "copies the DeviceIdentity structure verbatim into the reply" (43_feature_channel.md R137). -/
def execFeatDeviceInfo (now : Time) (s : State) : Host.Outcome State Fault Refusal :=
  .next (queueReply .feat (genAck s.cfg .deviceInfo ++ devId s.cfg s.idLow) now s)

/-- FEAT_SET_MODE (43_feature_channel.md R138). -/
def execFeatSetMode (arg : Byte) (now : Time) (s : State) : Host.Outcome State Fault Refusal :=
  .next (acknowledge .setMode now { s with inputMode := arg })

/-- FEAT_SPI_READ: the address and the requested size are echoed ahead of `min(N, SPI_READ_MAX)` flash bytes
(43_feature_channel.md R141). -/
def execFeatSpiRead (addr : Addr) (size : Byte) (now : Time) (s : State) : Host.Outcome State Fault Refusal :=
  .next (queueReply .feat
    (genAck s.cfg .spiRead ++ addrBytes addr ++ [size] ++ vfRead s.cfg addr (min size.toNat s.cfg.spiReadMax)) now s)

/-- FEAT_SET_PLAYER_LIGHTS: all 8 bits are stored (43_feature_channel.md R144). -/
def execFeatSetPlayerLights (arg : Byte) (now : Time) (s : State) : Host.Outcome State Fault Refusal :=
  .next (acknowledge .setPlayerLights now { s with playerId := arg })

/-- FEAT_GET_PLAYER_LIGHTS: echoes `player_id` (43_feature_channel.md R145). -/
def execFeatGetPlayerLights (now : Time) (s : State) : Host.Outcome State Fault Refusal :=
  .next (queueReply .feat (genAck s.cfg .getPlayerLights ++ [s.playerId]) now s)

/-- FEAT_TOGGLE_IMU (43_feature_channel.md R147). -/
def execFeatToggleImu (arg : Byte) (now : Time) (s : State) : Host.Outcome State Fault Refusal :=
  .next (acknowledge .toggleImu now { s with imuEn := argFlag arg })

/-- FEAT_ENABLE_VIBRATION (43_feature_channel.md R149). -/
def execFeatEnableVibration (arg : Byte) (now : Time) (s : State) : Host.Outcome State Fault Refusal :=
  .next (acknowledge .enableVibration now { s with vibEn := argFlag arg })

/-- FEAT_DEFAULT: the unknown selector is acknowledged, not dropped (43_feature_channel.md R153). -/
def execFeatDefault (sel : Byte) (now : Time) (s : State) : Host.Outcome State Fault Refusal :=
  .next (queueReply .feat [s.cfg.ackDefault, sel] now s)

end Sys2Proof.Machine
end

