-- ==== Sys2Proof/Machine/CommandInterpreter.lean ====
section
/-! DEFINITION. The event CmdIn (42_config_channel.md R122): the command its word asks for, by the word's key, run by
that command's rule. -/

namespace Sys2Proof.Machine

/-- The rule of a host command (42_config_channel.md R125; 43_feature_channel.md R133). -/
def runHostCommand (cmd : HostCommand) (now : Time) (s : State) : Host.Outcome State Fault Refusal :=
  match cmd with
  | .identify => execCfgIdentify now s
  | .handshake => execCfgHandshake now s
  | .baud => execCfgBaud now s
  | .disableTimeout => execCfgDisableTimeout now s
  | .enableTimeout => execCfgEnableTimeout now s
  | .cfgDefault sel => execCfgDefault sel now s
  | .getState => execFeatGetState now s
  | .pair => execFeatPair now s
  | .deviceInfo => execFeatDeviceInfo now s
  | .setMode arg => execFeatSetMode arg now s
  | .triggerButtons => execFeatTriggerButtons now s
  | .setShipment => execFeatSetShipment now s
  | .spiRead addr size => execFeatSpiRead addr size now s
  | .setNfcIrConfig => execFeatSetNfcIrConfig now s
  | .setNfcIrState => execFeatSetNfcIrState now s
  | .setPlayerLights arg => execFeatSetPlayerLights arg now s
  | .getPlayerLights => execFeatGetPlayerLights now s
  | .setHomeLight => execFeatSetHomeLight now s
  | .toggleImu arg => execFeatToggleImu arg now s
  | .setImuSensitivity => execFeatSetImuSensitivity now s
  | .enableVibration arg => execFeatEnableVibration arg now s
  | .readImu => execFeatReadImu now s
  | .getVoltage => execFeatGetVoltage now s
  | .legacyUnknown => execFeatLegacyUnknown now s
  | .featDefault sel => execFeatDefault sel now s
  | .ignored channel => execCmdIgnored channel now s

/-- EV_CMDIN (42_config_channel.md R122). -/
def execEvCmdIn (c : List Byte) (now : Time) (s : State) : Host.Outcome State Fault Refusal :=
  runHostCommand (hostCommand s.cfg c) now s

end Sys2Proof.Machine
end

