-- ==== Sys2Proof/Machine/FrameDecoder.lean ====
section
/-! DEFINITION. The frame decoder: ByteIn (40_frame_decoder.md R95 to R109), and the two frame rows of the opcode
table, whose meaning is the ByteIn of each of the frame's bytes. -/

namespace Sys2Proof.Machine

/-- The frame is complete at `fd_cnt = fd_exp`: InputState is overwritten wholesale and the decoder is IDLE again
(40_frame_decoder.md R102, R103); otherwise the decoder stays SYNCING. -/
def completeFrame (s : State) : State :=
  if s.fdExp = some s.fdCnt then
    drive (.fdEvt .frame)
      (resetDecoder { s with input := decodeFields s.cfg (fieldBlock s.cfg s.fdBuf) })
  else drive (.fdEvt .none) s

/-- SYNCING: the byte, whatever its value, is the next frame byte (40_frame_decoder.md R99); the third byte of a
length-prefixed frame is its length (R100). -/
def accumulate (b : Byte) (s : State) : State :=
  let s := { s with fdBuf := s.fdBuf ++ [b], fdCnt := s.fdCnt + 1 }
  if s.cfg.frameFmt = .lenPfx ∧ s.fdCnt = 3 then
    let total := b.toNat + lenpfxOverhead
    if lengthAccepted s.cfg total then completeFrame { s with fdExp := some total }
    else drive (.fdEvt .dropLen) (resetDecoder s)
  else completeFrame s

/-- IDLE: the sentinel begins a frame, any other byte is discarded (40_frame_decoder.md R98, R101). `evt` is what the
event has to report so far: NONE, or DROP_TIMEOUT (R107). -/
def scanIdle (b : Byte) (evt : FdEvt) (s : State) : State :=
  if b = s.cfg.sentinel then
    drive (.fdEvt evt)
      { s with fdBuf := [b], fdCnt := 1, fdState := .syncing,
               fdExp := if s.cfg.frameFmt = .legacy8 then some legacyLen else none }
  else drive (.fdEvt (if evt = .none then .discard else evt)) s

/-- `ByteIn(b, now)` (40_frame_decoder.md R96). -/
def byteIn (b : Byte) (now : Time) (s : State) : State :=
  if gapTimedOut s now then scanIdle b .dropTimeout { resetDecoder s with fdLastT := now }
  else
    match s.fdState with
    | .idle => scanIdle b .none { s with fdLastT := now }
    | .syncing => accumulate b { s with fdLastT := now }

/-- The ByteIn events of a byte sequence, in order, at one time (30_encoding.md R93 `byte`). -/
def bytesIn (bytes : List Byte) (now : Time) (s : State) : State :=
  bytes.foldl (fun s b => byteIn b now s) s

/-- EV_BYTEIN (40_frame_decoder.md R96). -/
def execEvByteIn (b : Byte) (now : Time) (s : State) : Host.Outcome State Fault Refusal :=
  .next (byteIn b now s)

/-- FRAME_LEGACY8: the bytes of the frame of 30_encoding.md R68, each by ByteIn (40_frame_decoder.md R96). -/
def execFrameLegacy8 (fb : FieldBlock) (now : Time) (s : State) : Host.Outcome State Fault Refusal :=
  .next (bytesIn (legacyFrame s.cfg fb) now s)

/-- FRAME_LENPFX: the bytes of the frame of 30_encoding.md R69, each by ByteIn (40_frame_decoder.md R96). -/
def execFrameLenpfx (version : Byte) (fb : FieldBlock) (extra : List Byte) (trailer : Byte) (now : Time)
    (s : State) : Host.Outcome State Fault Refusal :=
  .next (bytesIn (lenpfxFrame s.cfg version fb extra trailer) now s)

end Sys2Proof.Machine
end

