-- ==== Sys2Proof/Machine/ResetEvents.lean ====
section
/-! DEFINITION. The two reset events (70_reset_and_hazards.md R194 to R197). Neither drives an output. -/

namespace Sys2Proof.Machine

/-- EV_POWERON with its draw of `ID_LOW`; `pr_chan`, `pr_payload` and `snap` are not written
(70_reset_and_hazards.md R195). -/
def execEvPowerOn (idLow : IdBytes) (s : State) : Host.Outcome State Fault Refusal :=
  .next { sessionDefaults (resetDecoder s) with
    idLow := idLow, input := InputState.neutral s.cfg, fdLastT := 0, prValid := false, lastSentT := 0,
    ctr := 0x00, snapValid := false }

/-- EV_LINKRESET (70_reset_and_hazards.md R196); it keeps InputState, the decoder, `ctr`, `last_sent_t` and `ID_LOW`
(R197). -/
def execEvLinkReset (s : State) : Host.Outcome State Fault Refusal :=
  .next { sessionDefaults s with prValid := false, snapValid := false }

end Sys2Proof.Machine
end

