-- ==== Sys2Proof/Machine/RumbleRelay.lean ====
section
/-! DEFINITION. The rumble relay (45_rumble_relay.md R172 to R174). It reads and writes no register. -/

namespace Sys2Proof.Machine

/-- `emit_serial(f)` of the rumble frame with payload r (45_rumble_relay.md R172). -/
def emitRumble (r : Haptic) (s : State) : State := drive (.serialTx (rumbleFrameBytes s.cfg r)) s

/-- EV_RUMBLEIN; `now` is not used (45_rumble_relay.md R172). -/
def execEvRumbleIn (r : Haptic) (_now : Time) (s : State) : Host.Outcome State Fault Refusal :=
  .next (emitRumble r s)

/-- RUMBLE_FRAME: the frame itself sent on `serial_tx` (30_encoding.md R91; 45_rumble_relay.md R172; log 11). -/
def execRumbleFrame (r : Haptic) (s : State) : Host.Outcome State Fault Refusal :=
  .next (emitRumble r s)

end Sys2Proof.Machine
end

