-- ==== Sys2Proof/Machine/Scheduler.lean ====
section
/-! DEFINITION. The report scheduler: Tick (44_report_scheduler.md R157 to R171). -/

namespace Sys2Proof.Machine

/-- Branch (1), the pending reply (44_report_scheduler.md R160, R165). -/
def tickReply (now : Time) (txReady : Bool) (s : State) : State :=
  if txReady then { sendReport (frameReply s s.prChan s.prPayload) now s with prValid := false } else s

/-- Branch (2), the periodic input report, suppressed when it is the same as the snapshot
(44_report_scheduler.md R161, R165). -/
def tickPeriodic (now : Time) (txReady : Bool) (s : State) : State :=
  let report := buildInput s.cfg s.input s.ctr
  if s.snapValid && same s.cfg.reportLen report s.snap then s
  else if txReady then { sendReport report now s with snap := report, snapValid := true }
  else s

/-- Branch (3), the one-shot identification report (44_report_scheduler.md R162, R165). -/
def tickIdentify (now : Time) (txReady : Bool) (s : State) : State :=
  if txReady then
    { sendReport (frameReply s .cfg (identPayload s.cfg s.idLow)) now s with initialized := true }
  else s

/-- `Tick(now, tx_ready, suspended)`: `wake_req` first, then at most one branch of a due Tick
(44_report_scheduler.md R157, R158, R159). -/
def tick (now : Time) (txReady suspended : Bool) (s : State) : State :=
  let s := drive (.wakeReq suspended) s
  if due s now then
    if s.prValid then tickReply now txReady s
    else if s.ready then tickPeriodic now txReady s
    else if s.initialized then s
    else tickIdentify now txReady s
  else s

/-- EV_TICK (44_report_scheduler.md R157). -/
def execEvTick (now : Time) (txReady suspended : Bool) (s : State) : Host.Outcome State Fault Refusal :=
  .next (tick now txReady suspended s)

end Sys2Proof.Machine
end

