-- ==== Sys2Proof/Machine/Dispatch.lean ====
section
/-! DEFINITION. The dispatch from an instruction to its meaning, one arm for each row of spec/opcode_table.json. -/

namespace Sys2Proof.Machine

def exec (i : Instr) (s : State) : Host.Outcome State Fault Refusal :=
  match i with
  | .cfgIdentify now => Sys2Proof.Machine.execCfgIdentify now s
  | .cfgHandshake now => Sys2Proof.Machine.execCfgHandshake now s
  | .cfgBaud now => Sys2Proof.Machine.execCfgBaud now s
  | .cfgDisableTimeout now => Sys2Proof.Machine.execCfgDisableTimeout now s
  | .cfgEnableTimeout now => Sys2Proof.Machine.execCfgEnableTimeout now s
  | .cfgDefault sel now => Sys2Proof.Machine.execCfgDefault sel now s
  | .featGetState now => Sys2Proof.Machine.execFeatGetState now s
  | .featPair now => Sys2Proof.Machine.execFeatPair now s
  | .featDeviceInfo now => Sys2Proof.Machine.execFeatDeviceInfo now s
  | .featSetMode arg now => Sys2Proof.Machine.execFeatSetMode arg now s
  | .featTriggerButtons now => Sys2Proof.Machine.execFeatTriggerButtons now s
  | .featSetShipment now => Sys2Proof.Machine.execFeatSetShipment now s
  | .featSpiRead addr size now => Sys2Proof.Machine.execFeatSpiRead addr size now s
  | .featSetNfcIrConfig now => Sys2Proof.Machine.execFeatSetNfcIrConfig now s
  | .featSetNfcIrState now => Sys2Proof.Machine.execFeatSetNfcIrState now s
  | .featSetPlayerLights arg now => Sys2Proof.Machine.execFeatSetPlayerLights arg now s
  | .featGetPlayerLights now => Sys2Proof.Machine.execFeatGetPlayerLights now s
  | .featSetHomeLight now => Sys2Proof.Machine.execFeatSetHomeLight now s
  | .featToggleImu arg now => Sys2Proof.Machine.execFeatToggleImu arg now s
  | .featSetImuSensitivity now => Sys2Proof.Machine.execFeatSetImuSensitivity now s
  | .featReadImu now => Sys2Proof.Machine.execFeatReadImu now s
  | .featEnableVibration arg now => Sys2Proof.Machine.execFeatEnableVibration arg now s
  | .featGetVoltage now => Sys2Proof.Machine.execFeatGetVoltage now s
  | .featLegacyUnknown now => Sys2Proof.Machine.execFeatLegacyUnknown now s
  | .featDefault sel now => Sys2Proof.Machine.execFeatDefault sel now s
  | .cmdIgnored channel now => Sys2Proof.Machine.execCmdIgnored channel now s
  | .frameLegacy8 fb now => Sys2Proof.Machine.execFrameLegacy8 fb now s
  | .frameLenpfx version fb extra trailer now => Sys2Proof.Machine.execFrameLenpfx version fb extra trailer now s
  | .rumbleFrame r => Sys2Proof.Machine.execRumbleFrame r s
  | .evPowerOn idLow => Sys2Proof.Machine.execEvPowerOn idLow s
  | .evLinkReset => Sys2Proof.Machine.execEvLinkReset s
  | .evByteIn b now => Sys2Proof.Machine.execEvByteIn b now s
  | .evCmdIn c now => Sys2Proof.Machine.execEvCmdIn c now s
  | .evTick now txReady suspended => Sys2Proof.Machine.execEvTick now txReady suspended s
  | .evRumbleIn r now => Sys2Proof.Machine.execEvRumbleIn r now s

end Sys2Proof.Machine
end

