-- ==== Sys2Proof/WellFormed.lean ====
section
/-! DEFINITION. Which instructions an encoding of the configuration can name (30_encoding.md R68 to R78, R86 to R91). -/

namespace Sys2Proof

/-- A command word can carry `sel` at `off` beside its channel id at byte 0: at offset 0 the two are one byte. -/
def selectorFits (off : Nat) (channel sel : Byte) : Bool := off != 0 || sel == channel

/-- A configuration command's word exists (30_encoding.md R76). -/
def cfgRowFits (p : Params) (cmd : CfgCmd) : Bool := selectorFits p.cfgSelOff p.chConfig (p.cfgCodes.at cmd)

/-- A feature command's word exists (30_encoding.md R77). -/
def featRowFits (p : Params) (cmd : FeatCmd) : Bool := selectorFits p.featSelOff p.chFeature (p.featCodes.at cmd)

/-- The rows' own constraints: a default row's selector has no row of its own (30_encoding.md R87), an ignored word's
channel byte is no channel id (R89), a frame has the configuration's shape and, length-prefixed, an accepted length
(R68, R69). -/
def Instr.wf (p : Params) : Instr → Bool
  | .cfgIdentify _ => cfgRowFits p .identify
  | .cfgHandshake _ => cfgRowFits p .handshake
  | .cfgBaud _ => cfgRowFits p .baud
  | .cfgDisableTimeout _ => cfgRowFits p .disableTimeout
  | .cfgEnableTimeout _ => cfgRowFits p .enableTimeout
  | .cfgDefault sel _ => selectorFits p.cfgSelOff p.chConfig sel && (Machine.selectCfg p sel).isNone
  | .featGetState _ => featRowFits p .getState
  | .featPair _ => featRowFits p .pair
  | .featDeviceInfo _ => featRowFits p .deviceInfo
  | .featSetMode _ _ => featRowFits p .setMode
  | .featTriggerButtons _ => featRowFits p .triggerButtons
  | .featSetShipment _ => featRowFits p .setShipment
  | .featSpiRead _ _ _ => featRowFits p .spiRead
  | .featSetNfcIrConfig _ => featRowFits p .setNfcIrConfig
  | .featSetNfcIrState _ => featRowFits p .setNfcIrState
  | .featSetPlayerLights _ _ => featRowFits p .setPlayerLights
  | .featGetPlayerLights _ => featRowFits p .getPlayerLights
  | .featSetHomeLight _ => featRowFits p .setHomeLight
  | .featToggleImu _ _ => featRowFits p .toggleImu
  | .featSetImuSensitivity _ => featRowFits p .setImuSensitivity
  | .featReadImu _ => featRowFits p .readImu
  | .featEnableVibration _ _ => featRowFits p .enableVibration
  | .featGetVoltage _ => featRowFits p .getVoltage
  | .featLegacyUnknown _ => featRowFits p .legacyUnknown
  | .featDefault sel _ => selectorFits p.featSelOff p.chFeature sel && (Machine.selectFeat p sel).isNone
  | .cmdIgnored channel _ => channel != p.chConfig && channel != p.chFeature
  | .frameLegacy8 _ _ => p.frameFmt == .legacy8
  | .frameLenpfx _ _ extra _ _ =>
      p.frameFmt == .lenPfx && decide (p.fdMinFrame ≤ 7 + extra.length + lenpfxOverhead)
        && decide (7 + extra.length + lenpfxOverhead ≤ p.fdBufCap)
  | .rumbleFrame _ => true
  | .evPowerOn _ => true
  | .evLinkReset => true
  | .evByteIn _ _ => true
  | .evCmdIn _ _ => true
  | .evTick _ _ _ => true
  | .evRumbleIn _ _ => true

end Sys2Proof
end

