-- ==== Sys2Proof/Decode.lean ====
section
/-! DEFINITION. From a port word to an instruction and back (30_encoding.md R67 to R91). Decoding is total: every word
the host can offer names an instruction, and only bytes on the output-frame port can be rejected, by name. -/

namespace Sys2Proof

open Machine (State DecodeError cbyte addrBytes hostCommand legacyFrame lenpfxTail fieldBytes rumbleFrameBytes
  rumbleBody byteSum hapticBytes)

/-- The instruction of a host command offered at a time. -/
def HostCommand.toInstr (now : Time) : HostCommand → Instr
  | .identify => .cfgIdentify now
  | .handshake => .cfgHandshake now
  | .baud => .cfgBaud now
  | .disableTimeout => .cfgDisableTimeout now
  | .enableTimeout => .cfgEnableTimeout now
  | .cfgDefault sel => .cfgDefault sel now
  | .getState => .featGetState now
  | .pair => .featPair now
  | .deviceInfo => .featDeviceInfo now
  | .setMode arg => .featSetMode arg now
  | .triggerButtons => .featTriggerButtons now
  | .setShipment => .featSetShipment now
  | .spiRead addr size => .featSpiRead addr size now
  | .setNfcIrConfig => .featSetNfcIrConfig now
  | .setNfcIrState => .featSetNfcIrState now
  | .setPlayerLights arg => .featSetPlayerLights arg now
  | .getPlayerLights => .featGetPlayerLights now
  | .setHomeLight => .featSetHomeLight now
  | .toggleImu arg => .featToggleImu arg now
  | .setImuSensitivity => .featSetImuSensitivity now
  | .enableVibration arg => .featEnableVibration arg now
  | .readImu => .featReadImu now
  | .getVoltage => .featGetVoltage now
  | .legacyUnknown => .featLegacyUnknown now
  | .featDefault sel => .featDefault sel now
  | .ignored channel => .cmdIgnored channel now

/-- The bytes of a serial read that are left over, as the next word. -/
def serialRest (now : Time) : List Byte → List PortWord
  | [] => []
  | b :: more => [.serialIn b more now]

/-- A whole frame at the head of a serial read, after its sentinel: the frame and the bytes left over. LEGACY8 takes
the 7 field bytes (30_encoding.md R68); LENPFX takes version, L, L payload bytes and the trailer, when L + 4 is
accepted (R69, R74). -/
def frameAfterSentinel (p : Params) (now : Time) (more : List Byte) : Option (Instr × List Byte) :=
  match p.frameFmt with
  | .legacy8 =>
    match more with
    | f0 :: f1 :: f2 :: f3 :: f4 :: f5 :: f6 :: rest => some (.frameLegacy8 ⟨f0, f1, f2, f3, f4, f5, f6⟩ now, rest)
    | _ => none
  | .lenPfx =>
    match more with
    | version :: len :: f0 :: f1 :: f2 :: f3 :: f4 :: f5 :: f6 :: tail =>
      let total := len.toNat + lenpfxOverhead
      let extraLen := len.toNat - 7
      if p.fdMinFrame ≤ total ∧ total ≤ p.fdBufCap ∧ 7 ≤ len.toNat then
        match tail.drop extraLen with
        | trailer :: rest =>
          some (.frameLenpfx version ⟨f0, f1, f2, f3, f4, f5, f6⟩ (tail.take extraLen) trailer now, rest)
        | [] => none
      else none
    | _ => none

/-- The first instruction of a serial read: a whole frame where one stands at its head, else the ByteIn of its first
byte (10_state.md R15: "several available bytes are several ByteIn events in arrival order"). -/
def decodeSerial (p : Params) (b : Byte) (more : List Byte) (now : Time) : Instr × List PortWord :=
  if b = p.sentinel then
    match frameAfterSentinel p now more with
    | some (i, rest) => (i, serialRest now rest)
    | none => (.evByteIn b now, serialRest now more)
  else (.evByteIn b now, serialRest now more)

/-- An outgoing rumble frame (30_encoding.md R91), or why the bytes are none. -/
def decodeRumble (p : Params) : List Byte → Except DecodeError Instr
  | [h, t, r0, r1, r2, r3, r4, r5, r6, r7, sum] =>
    let r : Haptic := ⟨r0, r1, r2, r3, r4, r5, r6, r7⟩
    if h ≠ p.rumbleHdr ∨ t ≠ p.rumbleType then .error .rumbleHeader
    else if sum ≠ byteSum (rumbleBody p r) then .error .rumbleChecksum
    else .ok (.rumbleFrame r)
  | _ => .error .rumbleLength

/-- The first instruction of a port word, and what is left of the word. -/
def decode (p : Params) : PortWord → Except DecodeError (Instr × List PortWord)
  | .powerOn idLow => .ok (.evPowerOn idLow, [])
  | .linkReset => .ok (.evLinkReset, [])
  | .serialIn b more now => .ok (decodeSerial p b more now)
  | .cmdIn c now => .ok (.evCmdIn c now, [])
  | .cmdWord c now => .ok ((hostCommand p c).toInstr now, [])
  | .tick now txReady suspended => .ok (.evTick now txReady suspended, [])
  | .rumbleIn r now => .ok (.evRumbleIn r now, [])
  | .serialOut bytes => (decodeRumble p bytes).map fun i => (i, [])

/-- A command word: the channel id at byte 0, zeros up to the selector's offset, the selector, its arguments
(30_encoding.md R76, R77). -/
def commandWord (off : Nat) (channel sel : Byte) (args : List Byte) : List Byte :=
  (if off = 0 then [] else channel :: List.replicate (off - 1) 0x00) ++ sel :: args

/-- A configuration command's word (30_encoding.md R76). -/
def cfgWord (p : Params) (sel : Byte) : List Byte := commandWord p.cfgSelOff p.chConfig sel []

/-- A feature command's word (30_encoding.md R77). -/
def featWord (p : Params) (sel : Byte) (args : List Byte) : List Byte :=
  commandWord p.featSelOff p.chFeature sel args

/-- A command row's word, with every byte the row does not interpret 0x00 and left out at the end. -/
def encodeCfg (p : Params) (cmd : CfgCmd) (now : Time) : PortWord := .cmdWord (cfgWord p (p.cfgCodes.at cmd)) now

/-- As `encodeCfg`, for a feature command with its arguments. -/
def encodeFeat (p : Params) (cmd : FeatCmd) (args : List Byte) (now : Time) : PortWord :=
  .cmdWord (featWord p (p.featCodes.at cmd) args) now

/-- The word of an instruction (30_encoding.md R68 to R91). -/
def encode (p : Params) : Instr → PortWord
  | .cfgIdentify now => encodeCfg p .identify now
  | .cfgHandshake now => encodeCfg p .handshake now
  | .cfgBaud now => encodeCfg p .baud now
  | .cfgDisableTimeout now => encodeCfg p .disableTimeout now
  | .cfgEnableTimeout now => encodeCfg p .enableTimeout now
  | .cfgDefault sel now => .cmdWord (cfgWord p sel) now
  | .featGetState now => encodeFeat p .getState [] now
  | .featPair now => encodeFeat p .pair [] now
  | .featDeviceInfo now => encodeFeat p .deviceInfo [] now
  | .featSetMode arg now => encodeFeat p .setMode [arg] now
  | .featTriggerButtons now => encodeFeat p .triggerButtons [] now
  | .featSetShipment now => encodeFeat p .setShipment [] now
  | .featSpiRead addr size now => encodeFeat p .spiRead (addrBytes addr ++ [size]) now
  | .featSetNfcIrConfig now => encodeFeat p .setNfcIrConfig [] now
  | .featSetNfcIrState now => encodeFeat p .setNfcIrState [] now
  | .featSetPlayerLights arg now => encodeFeat p .setPlayerLights [arg] now
  | .featGetPlayerLights now => encodeFeat p .getPlayerLights [] now
  | .featSetHomeLight now => encodeFeat p .setHomeLight [] now
  | .featToggleImu arg now => encodeFeat p .toggleImu [arg] now
  | .featSetImuSensitivity now => encodeFeat p .setImuSensitivity [] now
  | .featReadImu now => encodeFeat p .readImu [] now
  | .featEnableVibration arg now => encodeFeat p .enableVibration [arg] now
  | .featGetVoltage now => encodeFeat p .getVoltage [] now
  | .featLegacyUnknown now => encodeFeat p .legacyUnknown [] now
  | .featDefault sel now => .cmdWord (featWord p sel []) now
  | .cmdIgnored channel now => .cmdWord [channel] now
  | .frameLegacy8 fb now => .serialIn p.sentinel (fieldBytes fb) now
  | .frameLenpfx version fb extra trailer now => .serialIn p.sentinel (lenpfxTail version fb extra trailer) now
  | .rumbleFrame r => .serialOut (rumbleFrameBytes p r)
  | .evPowerOn idLow => .powerOn idLow
  | .evLinkReset => .linkReset
  | .evByteIn b now => .serialIn b [] now
  | .evCmdIn c now => .cmdIn c now
  | .evTick now txReady suspended => .tick now txReady suspended
  | .evRumbleIn r now => .rumbleIn r now

/-- The word a key of spec/opcode_table.json stands for, at time 0 (log 12). The table's 16-bit keys put the word's
first byte in their more significant byte (`K = (c[0] << 8) | sel`, 30_encoding.md R78; rumble bytes 0 and 1), its 8-bit
keys are byte 0. Every byte the key does not give is 0x00, but for the two a row itself fixes: the length of a
length-prefixed frame takes the least value the row admits, the rumble checksum its value (R69, R91). -/
def tableWord (p : Params) (nbits w : Nat) : Option PortWord :=
  let lo := BitVec.ofNat 8 w
  let hi := BitVec.ofNat 8 (w / 256)
  if nbits = 8 then
    if lo = p.sentinel then
      match p.frameFmt with
      | .legacy8 => some (encode p (.frameLegacy8 ⟨0, 0, 0, 0, 0, 0, 0⟩ 0))
      | .lenPfx => some (encode p (.frameLenpfx 0 ⟨0, 0, 0, 0, 0, 0, 0⟩ (List.replicate (p.fdMinFrame - 11) 0) 0 0))
    else some (.cmdWord [lo] 0)
  else if nbits = 16 then
    if hi = p.chConfig then some (.cmdWord (cfgWord p lo) 0)
    else if hi = p.chFeature then some (.cmdWord (featWord p lo []) 0)
    else if hi = p.rumbleHdr ∧ lo = p.rumbleType then
      some (encode p (.rumbleFrame ⟨0, 0, 0, 0, 0, 0, 0, 0⟩))
    else some (.cmdWord [hi, lo] 0)
  else none

/-- What the decoder reads from a key of the opcode table, in the reference configuration the table is written for. -/
def decodeTableWord (nbits w : Nat) : Option Instr :=
  match tableWord Params.refcfg nbits w with
  | none => none
  | some word =>
    match decode Params.refcfg word with
    | .ok (i, _) => some i
    | .error _ => none

end Sys2Proof
end

