-- ==== Sys2Proof/Machine/Fetch.lean ====
section
/-! DEFINITION. Taking the next instruction from the words the host offers. SPPB fetches nothing (10_state.md R22): its
instructions are the events that arrive (60_exceptions.md R180). -/

namespace Sys2Proof.Machine

/-- What stands at the head of the inbox. -/
inductive Fetched where
  /-- Nothing is offered. -/
  | idle
  /-- The next instruction, and the state with it taken from the inbox. -/
  | instr (i : Instr) (s : State)
  /-- The word names no instruction. -/
  | bad (why : DecodeError)
  deriving DecidableEq, Repr

/-- The next instruction: the first of the oldest word offered; what is left of the word stays first. -/
def fetchNext (s : State) : Fetched :=
  match s.inbox with
  | [] => .idle
  | word :: later =>
    match decode s.cfg word with
    | .ok (i, left) => .instr i { s with inbox := left ++ later }
    | .error why => .bad why

/-- A word put where the next step takes its instruction. -/
def offerFirst (word : PortWord) (s : State) : State := { s with inbox := word :: s.inbox }

/-- The word of an opcode-table key put where the next step takes its instruction; a key of a width the table does not
have puts nothing (log 12). -/
def offerTableWord (s : State) (nbits w : Nat) : State :=
  match tableWord s.cfg nbits w with
  | some word => offerFirst word s
  | none => s

end Sys2Proof.Machine
end

