-- ==== Sys2Proof/Machine/Step.lean ====
section
/-! DEFINITION. One step: the next instruction the host offers, run (00_scope.md R6). -/

namespace Sys2Proof.Machine

/-- One step. A configuration that breaks a constraint is refused, "not an instance of SPPB" (60_exceptions.md R177).
With nothing offered nothing changes: "A stall with no event never changes state by itself" (R186). -/
def step (s : State) : Host.Outcome State Fault Refusal :=
  if s.cfg.valid then
    match fetchNext s with
    | .idle => .next s
    | .instr i s => exec i s
    | .bad why => .refused (.undecodable why)
  else .refused .badConfiguration

/-- The word of an opcode-table key offered as the very next instruction (log 12). -/
def State.withFetchWord (s : State) (nbits w : Nat) : State := offerTableWord s nbits w

end Sys2Proof.Machine
end

