-- ==== Sys2Proof/Safety.lean ====
section
/-! DEFINITION. The invariants of SPPB and the terms the claims use: what a run of events is, what an event drove. -/

namespace Sys2Proof.Machine

/-- The decoder invariants of 40_frame_decoder.md R109 (with 10_state.md R24), that no length is expected while no
frame is in progress (R25), and the bound of R99 on the expected length, which makes them inductive. -/
structure DecoderInv (s : State) : Prop where
  idleIffEmpty : s.fdState = .idle ↔ s.fdCnt = 0
  countIsLength : s.fdCnt = s.fdBuf.length
  withinCapacity : s.fdCnt ≤ s.cfg.fdBufCap
  startsWithSentinel : s.fdState = .syncing → s.fdBuf.head? = some s.cfg.sentinel
  idleExpectsNone : s.fdState = .idle → s.fdExp = none
  unknownLength : s.fdExp = none → s.fdState = .idle ∨ (s.cfg.frameFmt = .lenPfx ∧ s.fdCnt ≤ 2)
  beforeEnd : ∀ e, s.fdState = .syncing → s.fdExp = some e → s.fdCnt < e
  endFits : ∀ e, s.fdExp = some e → e ≤ s.cfg.fdBufCap

/-- The longest payload a channel's reply has: 9 bytes of identify, or the longer of get-device-info and spi-read
(43_feature_channel.md R156). -/
def payloadBound (p : Params) : Channel → Nat
  | .cfg => 9
  | .feat => max 12 (7 + p.spiReadMax)

/-- A rumble frame on `serial_tx`: 11 bytes, the last the 8-bit sum of the others (45_rumble_relay.md R173). -/
def IsRumbleFrame (bytes : List Byte) : Prop :=
  ∃ body : List Byte, body.length = 10 ∧ bytes = body ++ [byteSum body]

/-- What one drive of a port may be: a report has `REPORT_LEN` bytes (10_state.md R16), a serial write is a rumble
frame (45_rumble_relay.md R173). -/
def OutputOk (p : Params) : Output → Prop
  | .usbTx report => report.length = p.reportLen
  | .wakeReq _ => True
  | .serialTx bytes => IsRumbleFrame bytes
  | .fdEvt _ => True

/-- The invariant of SPPB: a valid configuration, a consistent decoder, a pending payload that fits, a whole snapshot,
and well-formed outputs. -/
structure Inv (s : State) : Prop where
  cfgValid : s.cfg.valid = true
  decoder : DecoderInv s
  pendingFits : s.prPayload.length ≤ payloadBound s.cfg s.prChan
  snapWhole : s.snapValid = true → s.snap.length = s.cfg.reportLen ∧ s.snap.head? = some s.cfg.ridInput
  outputsOk : ∀ o ∈ s.outputs, OutputOk s.cfg o

/-- Events one after another, stopping at the first that gives no next state. -/
def execAll : List Instr → State → Host.Outcome State Fault Refusal
  | [], s => .next s
  | i :: is, s =>
    match exec i s with
    | .next t => execAll is t
    | .fault r => .fault r
    | .refused r => .refused r

/-- The reports among a list of outputs, in order. -/
def reportsOf (outs : List Output) : List (List Byte) :=
  outs.filterMap fun o =>
    match o with
    | .usbTx report => some report
    | _ => none

/-- The ByteIn events of a byte sequence at one time (30_encoding.md R93 `byte`). -/
def byteEvents (bytes : List Byte) (now : Time) : List Instr := bytes.map fun b => .evByteIn b now

/-- The rows of the two command channels and the ignored word. -/
def Instr.isCommand : Instr → Bool
  | .cfgIdentify _ => true
  | .cfgHandshake _ => true
  | .cfgBaud _ => true
  | .cfgDisableTimeout _ => true
  | .cfgEnableTimeout _ => true
  | .cfgDefault _ _ => true
  | .featGetState _ => true
  | .featPair _ => true
  | .featDeviceInfo _ => true
  | .featSetMode _ _ => true
  | .featTriggerButtons _ => true
  | .featSetShipment _ => true
  | .featSpiRead _ _ _ => true
  | .featSetNfcIrConfig _ => true
  | .featSetNfcIrState _ => true
  | .featSetPlayerLights _ _ => true
  | .featGetPlayerLights _ => true
  | .featSetHomeLight _ => true
  | .featToggleImu _ _ => true
  | .featSetImuSensitivity _ => true
  | .featReadImu _ => true
  | .featEnableVibration _ _ => true
  | .featGetVoltage _ => true
  | .featLegacyUnknown _ => true
  | .featDefault _ _ => true
  | .cmdIgnored _ _ => true
  | .evCmdIn _ _ => true
  | .frameLegacy8 _ _ => false
  | .frameLenpfx _ _ _ _ _ => false
  | .rumbleFrame _ => false
  | .evPowerOn _ => false
  | .evLinkReset => false
  | .evByteIn _ _ => false
  | .evTick _ _ _ => false
  | .evRumbleIn _ _ => false

end Sys2Proof.Machine
end

