-- ==== Sys2Proof/Certificates/Slice0/Obligations.lean ====
section
/-! DEFINITION. The statements about SPPB, for the provers. "Decision D<n>" and "general knowledge" in a docstring say
that the rule named is the spec's own choice (92_eei_decisions.md), "derived" that the spec marks it as its own
inference, "log <n>" that notes/assumptions/<n>.md is the model's choice. That what a port is driven with is appended
to the list `outputs` is log 8, in every statement that names it. -/

open Sys2Proof Sys2Proof.Machine

/-! ## Reset and the invariant -/

/-- 10_state.md R44, R19: the reset values the spec gives (its own decisions D12, D19, D21, D35, D45; log 4). Nothing
is said here of `cfg`, `idLow`, `prChan`, `prPayload`, `snap`, whose values at reset are the model's (logs 1 to 3). -/
def Obligations.ResetLeavesTheSpecsValues : Prop :=
  State.reset.input = InputState.neutral State.reset.cfg
  ∧ State.reset.input.btn = Buttons.none
  ∧ State.reset.input.dpad = ⟨false, false, false, false⟩
  ∧ State.reset.input.lx = 0x8000 ∧ State.reset.input.ly = 0x8000
  ∧ State.reset.input.rx = 0x8000 ∧ State.reset.input.ry = 0x8000
  ∧ State.reset.fdState = .idle ∧ State.reset.fdBuf = [] ∧ State.reset.fdCnt = 0
  ∧ State.reset.fdExp = none ∧ State.reset.fdLastT = 0
  ∧ State.reset.playerId = 0 ∧ State.reset.inputMode = 0 ∧ State.reset.imuEn = false
  ∧ State.reset.vibEn = false ∧ State.reset.ready = false ∧ State.reset.initialized = false
  ∧ State.reset.lastHostT = 0 ∧ State.reset.prValid = false ∧ State.reset.lastSentT = 0
  ∧ State.reset.ctr = 0 ∧ State.reset.snapValid = false

/-- 70_reset_and_hazards.md R195 (decisions D12, D35, D45): PowerOn with any draw writes every register but `pr_chan`,
`pr_payload` and `snap` (left as they were: log 3), and drives no output; it does not clear the record of the outputs
(log 8). -/
def Obligations.PowerOnWritesTheResetValues : Prop :=
  ∀ (s : State) (draw : IdBytes),
    exec (.evPowerOn draw) s = .next { s with
      idLow := draw
      input := { btn := Buttons.none, dpad := ⟨false, false, false, false⟩,
                 lx := s.cfg.axisMid, ly := s.cfg.axisMid, rx := s.cfg.axisMid, ry := s.cfg.axisMid }
      fdState := .idle, fdBuf := [], fdCnt := 0, fdExp := none, fdLastT := 0
      playerId := 0, inputMode := 0, imuEn := false, vibEn := false, ready := false
      initialized := false, lastHostT := 0, prValid := false, lastSentT := 0, ctr := 0
      snapValid := false }

/-- 70_reset_and_hazards.md R196, R197 (decisions D35, D36): what LinkReset clears, and that it keeps all else. -/
def Obligations.LinkResetClearsTheSession : Prop :=
  ∀ s : State,
    exec .evLinkReset s = .next { s with
      playerId := 0, inputMode := 0, imuEn := false, vibEn := false, ready := false
      initialized := false, lastHostT := 0, prValid := false, snapValid := false }

/-- The invariant of StepKeepsTheInvariant holds at reset (10_state.md R44). That the configuration is a valid one
rests on REFCFG (log 1), that the pending payload fits on `prPayload` being empty (log 3): both are the model's choices
for the reset state, and its decoder values are decision D45. -/
def Obligations.ResetMeetsTheInvariant : Prop := Inv State.reset

/-- From every state that meets the invariant, a step that answers a next state gives one that meets it: the decoder
registers (40_frame_decoder.md R109, derived; 10_state.md R24, decision D4; R25), the longest payload of the pending
reply's channel (43_feature_channel.md R156, derived, and the 12 bytes of get-device-info), the snapshot (10_state.md
R39, decisions D20, D36), the reports' length (10_state.md R16, decision D42) and the rumble frames
(45_rumble_relay.md R173, derived). Where `REPORT_LEN` is below 25 that longest payload may not fit a report, which is
then cut (log 15). -/
def Obligations.StepKeepsTheInvariant : Prop :=
  ∀ s t : State, Inv s → step s = .next t → Inv t

/-! ## Frame decoder -/

/-- 40_frame_decoder.md R98, R101: in IDLE the sentinel begins a frame (of 8 bytes in LEGACY8, of a length not yet
known in LENPFX) and any other byte is discarded. That `fd_last_t` is written, that no gap is tested, and the values
of `fd_evt` are R96, R97, R107 (decisions D7, D42). -/
def Obligations.IdleByteBeginsAFrameOrIsDiscarded : Prop :=
  ∀ (s : State) (b : Byte) (now : Time), s.fdState = .idle →
    exec (.evByteIn b now) s = .next (
      if b = s.cfg.sentinel then
        { s with fdState := .syncing, fdBuf := [b], fdCnt := 1
                 fdExp := (match s.cfg.frameFmt with | .legacy8 => some 8 | .lenPfx => none)
                 fdLastT := now, outputs := s.outputs ++ [.fdEvt .none] }
      else { s with fdLastT := now, outputs := s.outputs ++ [.fdEvt .discard] })

/-- 40_frame_decoder.md R97 (decision D7; `fd_evt`: decision D42): a gap of more than `FD_TIMEOUT_MS` in SYNCING
discards the partial frame, and the byte is then taken as in IDLE. -/
def Obligations.StalledFrameIsDropped : Prop :=
  ∀ (s : State) (b : Byte) (now : Time), s.fdState = .syncing →
    s.cfg.fdTimeoutMs < (now - s.fdLastT).toNat →
    exec (.evByteIn b now) s = .next (
      if b = s.cfg.sentinel then
        { s with fdState := .syncing, fdBuf := [b], fdCnt := 1
                 fdExp := (match s.cfg.frameFmt with | .legacy8 => some 8 | .lenPfx => none)
                 fdLastT := now, outputs := s.outputs ++ [.fdEvt .dropTimeout] }
      else
        { s with fdState := .idle, fdBuf := [], fdCnt := 0, fdExp := none
                 fdLastT := now, outputs := s.outputs ++ [.fdEvt .dropTimeout] })

/-- 40_frame_decoder.md R100 (decisions D4, D5, D6, D8; `fd_evt`: D42): the third byte of a length-prefixed frame is
L; a total L + 4 out of range drops the partial frame, one in range becomes `fd_exp`. -/
def Obligations.LengthByteIsChecked : Prop :=
  ∀ (s : State) (b : Byte) (now : Time), s.cfg.valid = true → s.cfg.frameFmt = .lenPfx →
    s.fdState = .syncing → s.fdCnt = 2 → (now - s.fdLastT).toNat ≤ s.cfg.fdTimeoutMs →
    exec (.evByteIn b now) s = .next (
      if s.cfg.fdBufCap < b.toNat + 4 ∨ b.toNat + 4 < s.cfg.fdMinFrame then
        { s with fdState := .idle, fdBuf := [], fdCnt := 0, fdExp := none
                 fdLastT := now, outputs := s.outputs ++ [.fdEvt .dropLen] }
      else
        { s with fdBuf := s.fdBuf ++ [b], fdCnt := 3, fdExp := some (b.toNat + 4)
                 fdLastT := now, outputs := s.outputs ++ [.fdEvt .none] })

/-- 40_frame_decoder.md R99 (decision D9; `fd_evt`: D42): in SYNCING, within the deadline, a byte that neither is a
length byte nor completes the frame is appended, whatever its value. -/
def Obligations.FrameByteIsAppended : Prop :=
  ∀ (s : State) (b : Byte) (now : Time), s.fdState = .syncing →
    (now - s.fdLastT).toNat ≤ s.cfg.fdTimeoutMs →
    (s.cfg.frameFmt = .legacy8 ∨ s.fdCnt ≠ 2) → s.fdExp ≠ some (s.fdCnt + 1) →
    exec (.evByteIn b now) s = .next
      { s with fdBuf := s.fdBuf ++ [b], fdCnt := s.fdCnt + 1
               fdLastT := now, outputs := s.outputs ++ [.fdEvt .none] }

/-- 40_frame_decoder.md R102, R103: the byte that makes `fd_cnt = fd_exp` completes the frame. InputState is
overwritten wholesale from the field block, which starts at byte 1 in LEGACY8 and byte 3 in LENPFX (decision D6), and
the decoder is IDLE (`fd_evt`: decision D42). -/
def Obligations.LastFrameByteOverwritesInputState : Prop :=
  ∀ (s : State) (b f0 f1 f2 f3 f4 f5 f6 : Byte) (now : Time), s.fdState = .syncing →
    (now - s.fdLastT).toNat ≤ s.cfg.fdTimeoutMs →
    (s.cfg.frameFmt = .legacy8 ∨ s.fdCnt ≠ 2) → s.fdExp = some (s.fdCnt + 1) →
    ((s.fdBuf ++ [b]).drop (match s.cfg.frameFmt with | .legacy8 => 1 | .lenPfx => 3)).take 7
      = [f0, f1, f2, f3, f4, f5, f6] →
    exec (.evByteIn b now) s = .next
      { s with
        input := { btn := buttonsOf s.cfg (f1 ++ f0), dpad := s.cfg.dirFlags f2,
                   lx := f3 ++ f3, ly := f4 ++ f4, rx := f5 ++ f5, ry := f6 ++ f6 }
        fdState := .idle, fdBuf := [], fdCnt := 0, fdExp := none
        fdLastT := now, outputs := s.outputs ++ [.fdEvt .frame] }

/-- 40_frame_decoder.md R108: a ByteIn that completes no frame changes only the decoder registers and drives one
`fd_evt`, which is not FRAME (`fd_evt`: decision D42). -/
def Obligations.DroppedBytesChangeOnlyTheDecoder : Prop :=
  ∀ (s : State) (b : Byte) (now : Time), ∃ t : State, exec (.evByteIn b now) s = .next t ∧
    (t.outputs = s.outputs ++ [.fdEvt .frame] ∨
      ∃ evt : FdEvt, evt ≠ .frame ∧
        t = { s with fdState := t.fdState, fdBuf := t.fdBuf, fdCnt := t.fdCnt, fdExp := t.fdExp
                     fdLastT := now, outputs := s.outputs ++ [.fdEvt evt] })

/-- 30_encoding.md R68, 40_frame_decoder.md R96 (decisions D3, D7, D42): from IDLE, in LEGACY8, a whole legacy frame
at one time is decoded, by eight ByteIn events of which the eighth reports FRAME. That a frame row is its bytes at one
time is the model's choice (log 10). -/
def Obligations.LegacyFrameIsDecoded : Prop :=
  ∀ (s : State) (fb : FieldBlock) (now : Time), s.cfg.frameFmt = .legacy8 → s.fdState = .idle →
    exec (.frameLegacy8 fb now) s = .next
      { s with
        input := decodeFields s.cfg fb
        fdState := .idle, fdBuf := [], fdCnt := 0, fdExp := none, fdLastT := now
        outputs := s.outputs ++ List.replicate 7 (.fdEvt .none) ++ [.fdEvt .frame] }

/-- 30_encoding.md R69, 40_frame_decoder.md R96 (decisions D3, D5, D6, D7, D42): from IDLE, in LENPFX, a whole
length-prefixed frame of an accepted length is decoded; its version, trailer and further payload bytes are not read.
The row as its bytes at one time is the model's choice (log 10). -/
def Obligations.LengthPrefixedFrameIsDecoded : Prop :=
  ∀ (s : State) (version trailer : Byte) (fb : FieldBlock) (extra : List Byte) (now : Time),
    s.cfg.valid = true → s.cfg.frameFmt = .lenPfx → s.fdState = .idle →
    s.cfg.fdMinFrame ≤ extra.length + 11 → extra.length + 11 ≤ s.cfg.fdBufCap →
    exec (.frameLenpfx version fb extra trailer now) s = .next
      { s with
        input := decodeFields s.cfg fb
        fdState := .idle, fdBuf := [], fdCnt := 0, fdExp := none, fdLastT := now
        outputs := s.outputs ++ List.replicate (extra.length + 10) (.fdEvt .none) ++ [.fdEvt .frame] }

/-- 30_encoding.md R93 (`byte`: one ByteIn per byte, in order; decision D43), log 10: in every state and configuration
a frame row is the ByteIn events of its bytes. -/
def Obligations.FrameRowsAreTheirByteEvents : Prop :=
  (∀ (s : State) (fb : FieldBlock) (now : Time), ∃ t : State,
    exec (.frameLegacy8 fb now) s = .next t
      ∧ execAll (byteEvents
          [s.cfg.sentinel, fb.buttonsLo, fb.buttonsHi, fb.dir, fb.axisLX, fb.axisLY, fb.axisRX, fb.axisRY] now) s
        = .next t)
  ∧ (∀ (s : State) (version trailer : Byte) (fb : FieldBlock) (extra : List Byte) (now : Time), ∃ t : State,
    exec (.frameLenpfx version fb extra trailer now) s = .next t
      ∧ execAll (byteEvents
          ([s.cfg.sentinel, version, BitVec.ofNat 8 (7 + extra.length), fb.buttonsLo, fb.buttonsHi, fb.dir,
            fb.axisLX, fb.axisLY, fb.axisRX, fb.axisRY] ++ extra ++ [trailer]) now) s
        = .next t)

/-- 10_state.md R15 ("several available bytes are several ByteIn events in arrival order"; decision D1): taking a
frame from a serial read (logs 7, 10) means no more than its bytes one by one, and the bytes left over stay in
order. -/
def Obligations.SerialReadIsItsBytesInOrder : Prop :=
  ∀ (s : State) (b : Byte) (more : List Byte) (now : Time), ∃ (i : Instr) (taken left : List Byte),
    decode s.cfg (.serialIn b more now) = .ok (i, serialRest now left)
      ∧ b :: more = taken ++ left ∧ taken ≠ []
      ∧ exec i s = execAll (byteEvents taken now) s

/-- 40_frame_decoder.md R106: axis expansion is `(v << 8) | v`, which is 257 times v; it sends 0x00 to 0 and 0xFF to
65535, 0x80 to 0x8080, is strictly monotone, and makes the axes of a frame's InputState. -/
def Obligations.AxisExpansionIsExact : Prop :=
  (∀ v : Byte, expand v = (v.zeroExtend 16 <<< 8 ||| v.zeroExtend 16) ∧ (expand v).toNat = 257 * v.toNat)
  ∧ (expand 0x00).toNat = 0 ∧ (expand 0xFF).toNat = 65535 ∧ expand 0x80 = 0x8080
  ∧ (∀ v w : Byte, v.toNat < w.toNat → (expand v).toNat < (expand w).toNat)
  ∧ ∀ (p : Params) (fb : FieldBlock),
      (decodeFields p fb).lx = expand fb.axisLX ∧ (decodeFields p fb).ly = expand fb.axisLY
      ∧ (decodeFields p fb).rx = expand fb.axisRX ∧ (decodeFields p fb).ry = expand fb.axisRY

/-- 40_frame_decoder.md R104 (decision D11), 30_encoding.md R71 (general knowledge): bit k of the mask, for k in
0..13, is the button `BTN_MAP[k]`; bits 14 and 15 are ignored; the mask's low byte is `buttonsLo`. -/
def Obligations.ButtonMaskBitsAreTheMappedButtons : Prop :=
  (∀ (p : Params) (mask : Half), p.valid = true →
    (∀ (k : Nat) (name : Button), p.btnMap[k]? = some name → (buttonsOf p mask).get name = mask.getLsbD k)
    ∧ ∀ mask' : Half, (∀ k, k < 14 → mask.getLsbD k = mask'.getLsbD k) → buttonsOf p mask = buttonsOf p mask')
  ∧ ∀ (fb : FieldBlock) (k : Nat), k < 8 →
      (buttonMask fb).getLsbD k = fb.buttonsLo.getLsbD k
      ∧ (buttonMask fb).getLsbD (k + 8) = fb.buttonsHi.getLsbD k

/-- 40_frame_decoder.md R105, 30_encoding.md R72 (decision D10): the reference direction codes; codes from 0x09 on are
neutral. -/
def Obligations.ReferenceDirectionCodes : Prop :=
  Params.refcfg.dirFlags 0x00 = ⟨false, false, false, false⟩
  ∧ Params.refcfg.dirFlags 0x01 = ⟨true, false, false, false⟩
  ∧ Params.refcfg.dirFlags 0x02 = ⟨true, false, false, true⟩
  ∧ Params.refcfg.dirFlags 0x03 = ⟨false, false, false, true⟩
  ∧ Params.refcfg.dirFlags 0x04 = ⟨false, true, false, true⟩
  ∧ Params.refcfg.dirFlags 0x05 = ⟨false, true, false, false⟩
  ∧ Params.refcfg.dirFlags 0x06 = ⟨false, true, true, false⟩
  ∧ Params.refcfg.dirFlags 0x07 = ⟨false, false, true, false⟩
  ∧ Params.refcfg.dirFlags 0x08 = ⟨true, false, true, false⟩
  ∧ ∀ code : Byte, 9 ≤ code.toNat → Params.refcfg.dirFlags code = ⟨false, false, false, false⟩

/-- 40_frame_decoder.md R109 (derived), 10_state.md R18: InputState changes only at an event that reports FRAME, or at
PowerOn. -/
def Obligations.InputStateChangesOnlyAtFrameOrPowerOn : Prop :=
  ∀ (i : Instr) (s t : State), exec i s = .next t → t.input ≠ s.input →
    (∃ draw, i = .evPowerOn draw) ∨ Output.fdEvt .frame ∈ t.outputs.drop s.outputs.length

/-! ## Report builder -/

/-- 41_report_builder.md R111: the X axis is the raw sample shifted right by 4 and clamped to [min, max], as naturals;
so the low 4 bits of the sample do not matter, and the two extremes give the nearest bound. -/
def Obligations.ScaledXAxisIsTheClampedShift : Prop :=
  ∀ (raw : Half) (c : Calibration), c.ordered = true →
    scaleX raw c = clamp ((raw >>> 4).truncate 12) c.min c.max
    ∧ (scaleX raw c).toNat = min (max (raw.toNat / 16) c.min.toNat) c.max.toNat
    ∧ scaleX 0x0000 c = c.min ∧ scaleX 0xFFFF c = c.max
    ∧ ∀ raw' : Half, raw.toNat / 16 = raw'.toNat / 16 → scaleX raw' c = scaleX raw c

/-- 41_report_builder.md R112 (decision D14; 90_conflicts.md C4), R113 (derived): the Y axis is flipped before it is
clamped; both axes lie in [min, max] for every raw sample. -/
def Obligations.ScaledAxesLieInTheirRange : Prop :=
  ∀ (raw : Half) (c : Calibration), c.ordered = true →
    (scaleY raw c).toNat = min (max (4095 - raw.toNat / 16) c.min.toNat) c.max.toNat
    ∧ c.min.toNat ≤ (scaleX raw c).toNat ∧ (scaleX raw c).toNat ≤ c.max.toNat
    ∧ c.min.toNat ≤ (scaleY raw c).toNat ∧ (scaleY raw c).toNat ≤ c.max.toNat

/-- 41_report_builder.md R114 (decision D15, general knowledge): the three bytes are x and y, low bits first. -/
def Obligations.PackedStickHoldsBothValues : Prop :=
  ∀ x y : Wire, ∃ b0 b1 b2 : Byte, pack12 x y = [b0, b1, b2]
    ∧ b0.toNat + 256 * b1.toNat + 65536 * b2.toNat = x.toNat + 4096 * y.toNat

/-- 41_report_builder.md R115, 30_encoding.md R82 (decision D16, general knowledge): every button and dpad flag has
its one bit of bytes 3 to 5, and the other bits are 0. -/
def Obligations.ButtonBytesHoldEachFlagOnce : Prop :=
  ∀ (t : Buttons) (d : DirFlags),
    (List.range 8).map (buttonByte3 t).getLsbD = [t.y, t.x, t.b, t.a, false, false, t.r, t.zr]
    ∧ (List.range 8).map (buttonByte4 t).getLsbD
        = [t.minus, t.plus, t.rStick, t.lStick, t.home, t.capture, false, false]
    ∧ (List.range 8).map (buttonByte5 t d).getLsbD
        = [d.down, d.up, d.right, d.left, false, false, t.l, t.zl]

/-- 41_report_builder.md R116, 30_encoding.md R81 (decisions D16, D17, D18, D47; general knowledge): the whole input
report, its trailer of zeros, and that only byte 1 depends on the counter. -/
def Obligations.InputReportLayout : Prop :=
  ∀ (p : Params) (is : InputState) (k : Byte), p.valid = true →
    buildInput p is k =
      [p.ridInput, k, p.connBatt, buttonByte3 is.btn, buttonByte4 is.btn, buttonByte5 is.btn is.dpad]
        ++ pack12 (scaleX is.lx p.cal.leftX) (scaleY is.ly p.cal.leftY)
        ++ pack12 (scaleX is.rx p.cal.rightX) (scaleY is.ry p.cal.rightY)
        ++ List.replicate (p.reportLen - 12) 0
    ∧ ∀ k' : Byte, buildInput p is k' = (buildInput p is k).set 1 k'

/-- 44_report_scheduler.md R164, 30_encoding.md R84, R85 (decision D24, general knowledge): the reply frames of
payloads that fit, with the counter and the InputState of the moment they are built. -/
def Obligations.ReplyFramesHoldTheirPayload : Prop :=
  ∀ (s : State) (payload : List Byte), s.cfg.valid = true →
    (payload.length + 1 ≤ s.cfg.reportLen →
      frameReply s .cfg payload
        = s.cfg.ridCfgReply :: payload ++ List.replicate (s.cfg.reportLen - 1 - payload.length) 0)
    ∧ (payload.length + 13 ≤ s.cfg.reportLen →
      frameReply s .feat payload
        = s.cfg.ridFeatReply :: s.ctr :: ((buildInput s.cfg s.input 0).drop 2).take 11 ++ payload
            ++ List.replicate (s.cfg.reportLen - 13 - payload.length) 0)

/-! ## Command interpreter -/

/-- 42_config_channel.md R122 (decisions D28, D38), 30_encoding.md R87 (derived): `cbyte` reads a byte of the word or
0x00, and the event CmdIn does what the row its word decodes to does. That both are instructions is log 9. -/
def Obligations.CommandEventRunsTheRowOfItsKey : Prop :=
  (∀ (p : Params) (c : List Byte) (i : Nat),
    cbyte p c i = if i < min c.length p.cmdLenMax then c.getD i 0 else 0)
  ∧ ∀ (s : State) (c : List Byte) (now : Time), ∃ i : Instr,
      decode s.cfg (.cmdWord c now) = .ok (i, []) ∧ exec (.evCmdIn c now) s = exec i s

/-- 42_config_channel.md R126 (decision D34, general knowledge; `last_host_t`: D35, D38): identify replies with its 9
bytes, the device id bottom byte first. -/
def Obligations.IdentifyReply : Prop :=
  ∀ (s : State) (c : List Byte) (now : Time), s.cfg.valid = true →
    cbyte s.cfg c 0 = s.cfg.chConfig → cbyte s.cfg c s.cfg.cfgSelOff = s.cfg.cfgCodes.identify →
    ∃ t : State, exec (.evCmdIn c now) s = .next t ∧ exec (.cfgIdentify now) s = .next t
      ∧ t = { s with
          lastHostT := now, prValid := true, prChan := .cfg
          prPayload := [s.cfg.cfgCodes.identify, 0x00, s.cfg.ctrlType, s.idLow.b2, s.idLow.b1, s.idLow.b0,
                        s.cfg.idTop.b2, s.cfg.idTop.b1, s.cfg.idTop.b0] }

/-- 42_config_channel.md R127, R128, R130, R131 (decisions D29, D46; `last_host_t`: D35, D38): handshake,
declare-baud-rate, enable-host-timeout and every selector without a row of its own reply with their selector and write
nothing else; the rows do what their words do. -/
def Obligations.ConfigurationAcknowledgments : Prop :=
  ∀ (s : State) (c : List Byte) (now : Time), s.cfg.valid = true → cbyte s.cfg c 0 = s.cfg.chConfig →
    (cbyte s.cfg c s.cfg.cfgSelOff = s.cfg.cfgCodes.handshake →
      ∃ t : State, exec (.evCmdIn c now) s = .next t ∧ exec (.cfgHandshake now) s = .next t
        ∧ t = { s with lastHostT := now, prValid := true, prChan := .cfg
                       prPayload := [s.cfg.cfgCodes.handshake] })
    ∧ (cbyte s.cfg c s.cfg.cfgSelOff = s.cfg.cfgCodes.baud →
      ∃ t : State, exec (.evCmdIn c now) s = .next t ∧ exec (.cfgBaud now) s = .next t
        ∧ t = { s with lastHostT := now, prValid := true, prChan := .cfg
                       prPayload := [s.cfg.cfgCodes.baud] })
    ∧ (cbyte s.cfg c s.cfg.cfgSelOff = s.cfg.cfgCodes.enableTimeout →
      ∃ t : State, exec (.evCmdIn c now) s = .next t ∧ exec (.cfgEnableTimeout now) s = .next t
        ∧ t = { s with lastHostT := now, prValid := true, prChan := .cfg
                       prPayload := [s.cfg.cfgCodes.enableTimeout] })
    ∧ ((∀ cmd : CfgCmd, s.cfg.cfgCodes.at cmd ≠ cbyte s.cfg c s.cfg.cfgSelOff) →
      ∃ t : State, exec (.evCmdIn c now) s = .next t
        ∧ exec (.cfgDefault (cbyte s.cfg c s.cfg.cfgSelOff) now) s = .next t
        ∧ t = { s with lastHostT := now, prValid := true, prChan := .cfg
                       prPayload := [cbyte s.cfg c s.cfg.cfgSelOff] })

/-- 42_config_channel.md R129: disable-host-timeout sets `ready` and replies with its selector; the reply register and
`last_host_t` are written by R122 (decisions D28, D35, D38). -/
def Obligations.DisableTimeoutCompletesTheHandshake : Prop :=
  ∀ (s : State) (c : List Byte) (now : Time), s.cfg.valid = true →
    cbyte s.cfg c 0 = s.cfg.chConfig → cbyte s.cfg c s.cfg.cfgSelOff = s.cfg.cfgCodes.disableTimeout →
    ∃ t : State, exec (.evCmdIn c now) s = .next t ∧ exec (.cfgDisableTimeout now) s = .next t
      ∧ t = { s with
          ready := true, lastHostT := now, prValid := true, prChan := .cfg
          prPayload := [s.cfg.cfgCodes.disableTimeout] }

/-- 43_feature_channel.md R134 and the rules of the eleven commands (R135, R136, R139, R140, R142, R143, R146, R148,
R150, R151, R152; decisions D27, D29, D46; `last_host_t`: D35, D38): each replies `[ACK, sel]` and writes nothing
else; the rows do what their words do. -/
def Obligations.FeatureAcknowledgments : Prop :=
  ∀ (s : State) (now : Time),
    (∀ row ∈ [(FeatCmd.getState, Instr.featGetState now), (.pair, .featPair now),
        (.triggerButtons, .featTriggerButtons now), (.setShipment, .featSetShipment now),
        (.setNfcIrConfig, .featSetNfcIrConfig now), (.setNfcIrState, .featSetNfcIrState now),
        (.setHomeLight, .featSetHomeLight now), (.setImuSensitivity, .featSetImuSensitivity now),
        (.readImu, .featReadImu now), (.getVoltage, .featGetVoltage now),
        (.legacyUnknown, .featLegacyUnknown now)],
      exec row.2 s = .next { s with
          lastHostT := now, prValid := true, prChan := .feat
          prPayload := [s.cfg.featAcks.at row.1, s.cfg.featCodes.at row.1] }
      ∧ ∀ c : List Byte, s.cfg.valid = true → cbyte s.cfg c 0 = s.cfg.chFeature →
          cbyte s.cfg c s.cfg.featSelOff = s.cfg.featCodes.at row.1 →
          exec (.evCmdIn c now) s = exec row.2 s)

/-- 43_feature_channel.md R153 (decision D29; `last_host_t`: D35, D38): a selector no command has is acknowledged with
its own echo. Which selectors those are follows the codes of 30_encoding.md R86 (decision D27), not the count R153
gives (log 22). -/
def Obligations.UnknownFeatureSelectorIsAcknowledged : Prop :=
  ∀ (s : State) (c : List Byte) (now : Time), s.cfg.valid = true → cbyte s.cfg c 0 = s.cfg.chFeature →
    (∀ cmd : FeatCmd, s.cfg.featCodes.at cmd ≠ cbyte s.cfg c s.cfg.featSelOff) →
    ∃ t : State, exec (.evCmdIn c now) s = .next t
      ∧ exec (.featDefault (cbyte s.cfg c s.cfg.featSelOff) now) s = .next t
      ∧ t = { s with lastHostT := now, prValid := true, prChan := .feat
                     prPayload := [s.cfg.ackDefault, cbyte s.cfg c s.cfg.featSelOff] }

/-- 43_feature_channel.md R138, R144: set-mode stores its argument byte in `input_mode`, set-player-lights its whole
argument byte in `player_id`; each replies `[ACK, sel]` (R134, decision D29; `last_host_t`: D35, D38). -/
def Obligations.SetModeAndSetPlayerLightsStoreTheirByte : Prop :=
  ∀ (s : State) (c : List Byte) (now : Time), s.cfg.valid = true → cbyte s.cfg c 0 = s.cfg.chFeature →
    (cbyte s.cfg c s.cfg.featSelOff = s.cfg.featCodes.setMode →
      ∃ t : State, exec (.evCmdIn c now) s = .next t
        ∧ exec (.featSetMode (cbyte s.cfg c (s.cfg.featSelOff + 1)) now) s = .next t
        ∧ t = { s with
            inputMode := cbyte s.cfg c (s.cfg.featSelOff + 1)
            lastHostT := now, prValid := true, prChan := .feat
            prPayload := [s.cfg.featAcks.setMode, s.cfg.featCodes.setMode] })
    ∧ (cbyte s.cfg c s.cfg.featSelOff = s.cfg.featCodes.setPlayerLights →
      ∃ t : State, exec (.evCmdIn c now) s = .next t
        ∧ exec (.featSetPlayerLights (cbyte s.cfg c (s.cfg.featSelOff + 1)) now) s = .next t
        ∧ t = { s with
            playerId := cbyte s.cfg c (s.cfg.featSelOff + 1)
            lastHostT := now, prValid := true, prChan := .feat
            prPayload := [s.cfg.featAcks.setPlayerLights, s.cfg.featCodes.setPlayerLights] })

/-- 43_feature_channel.md R145 (decisions D29, D35, D38): get-player-lights echoes `player_id`, also right after
set-player-lights (70_reset_and_hazards.md R201, derived). -/
def Obligations.GetPlayerLightsEchoesTheId : Prop :=
  (∀ (s : State) (c : List Byte) (now : Time), s.cfg.valid = true →
    cbyte s.cfg c 0 = s.cfg.chFeature → cbyte s.cfg c s.cfg.featSelOff = s.cfg.featCodes.getPlayerLights →
    ∃ t : State, exec (.evCmdIn c now) s = .next t ∧ exec (.featGetPlayerLights now) s = .next t
      ∧ t = { s with
          lastHostT := now, prValid := true, prChan := .feat
          prPayload := [s.cfg.featAcks.getPlayerLights, s.cfg.featCodes.getPlayerLights, s.playerId] })
  ∧ ∀ (s : State) (arg : Byte) (now now' : Time), ∃ t : State,
      execAll [.featSetPlayerLights arg now, .featGetPlayerLights now'] s = .next t
      ∧ t.prPayload = [s.cfg.featAcks.getPlayerLights, s.cfg.featCodes.getPlayerLights, arg]

/-- 43_feature_channel.md R147, R149 (decision D37; reply and `last_host_t`: D29, D35, D38): toggle-imu and
enable-vibration store whether their argument byte is not 0x00. -/
def Obligations.BooleanCommandsStoreNonzero : Prop :=
  ∀ (s : State) (c : List Byte) (now : Time), s.cfg.valid = true → cbyte s.cfg c 0 = s.cfg.chFeature →
    (cbyte s.cfg c s.cfg.featSelOff = s.cfg.featCodes.toggleImu →
      ∃ t : State, exec (.evCmdIn c now) s = .next t
        ∧ exec (.featToggleImu (cbyte s.cfg c (s.cfg.featSelOff + 1)) now) s = .next t
        ∧ t = { s with
            imuEn := decide (cbyte s.cfg c (s.cfg.featSelOff + 1) ≠ 0x00)
            lastHostT := now, prValid := true, prChan := .feat
            prPayload := [s.cfg.featAcks.toggleImu, s.cfg.featCodes.toggleImu] })
    ∧ (cbyte s.cfg c s.cfg.featSelOff = s.cfg.featCodes.enableVibration →
      ∃ t : State, exec (.evCmdIn c now) s = .next t
        ∧ exec (.featEnableVibration (cbyte s.cfg c (s.cfg.featSelOff + 1)) now) s = .next t
        ∧ t = { s with
            vibEn := decide (cbyte s.cfg c (s.cfg.featSelOff + 1) ≠ 0x00)
            lastHostT := now, prValid := true, prChan := .feat
            prPayload := [s.cfg.featAcks.enableVibration, s.cfg.featCodes.enableVibration] })

/-- 43_feature_channel.md R137, 10_state.md R41 (decisions D29, D33; `last_host_t`: D35, D38): get-device-info replies
with the ten identity bytes, the device id top byte first. -/
def Obligations.DeviceInfoReply : Prop :=
  ∀ (s : State) (c : List Byte) (now : Time), s.cfg.valid = true →
    cbyte s.cfg c 0 = s.cfg.chFeature → cbyte s.cfg c s.cfg.featSelOff = s.cfg.featCodes.deviceInfo →
    ∃ t : State, exec (.evCmdIn c now) s = .next t ∧ exec (.featDeviceInfo now) s = .next t
      ∧ t = { s with
          lastHostT := now, prValid := true, prChan := .feat
          prPayload := [s.cfg.featAcks.deviceInfo, s.cfg.featCodes.deviceInfo, s.cfg.fwMajor, s.cfg.fwMinor,
                        s.cfg.ctrlType, s.cfg.idTop.b0, s.cfg.idTop.b1, s.cfg.idTop.b2,
                        s.idLow.b0, s.idLow.b1, s.idLow.b2, s.cfg.vendorFlag] }

/-- 43_feature_channel.md R141 (decisions D29, D30; `last_host_t`: D35, D38): spi-read echoes its address bytes and
its requested size ahead of `min(N, SPI_READ_MAX)` flash bytes, read from the little-endian address. -/
def Obligations.SpiReadReply : Prop :=
  ∀ (s : State) (c : List Byte) (now : Time), s.cfg.valid = true →
    cbyte s.cfg c 0 = s.cfg.chFeature → cbyte s.cfg c s.cfg.featSelOff = s.cfg.featCodes.spiRead →
    ∃ (t : State) (addr : Addr),
      addr.toNat = (cbyte s.cfg c (s.cfg.featSelOff + 1)).toNat
          + 256 * (cbyte s.cfg c (s.cfg.featSelOff + 2)).toNat
          + 65536 * (cbyte s.cfg c (s.cfg.featSelOff + 3)).toNat
          + 16777216 * (cbyte s.cfg c (s.cfg.featSelOff + 4)).toNat
      ∧ exec (.evCmdIn c now) s = .next t
      ∧ exec (.featSpiRead addr (cbyte s.cfg c (s.cfg.featSelOff + 5)) now) s = .next t
      ∧ t = { s with
          lastHostT := now, prValid := true, prChan := .feat
          prPayload := [s.cfg.featAcks.spiRead, s.cfg.featCodes.spiRead,
              cbyte s.cfg c (s.cfg.featSelOff + 1), cbyte s.cfg c (s.cfg.featSelOff + 2),
              cbyte s.cfg c (s.cfg.featSelOff + 3), cbyte s.cfg c (s.cfg.featSelOff + 4),
              cbyte s.cfg c (s.cfg.featSelOff + 5)]
            ++ vfRead s.cfg addr (min (cbyte s.cfg c (s.cfg.featSelOff + 5)).toNat s.cfg.spiReadMax) }

/-- 42_config_channel.md R124, 30_encoding.md R89 (decision D44): a word of no channel changes nothing. -/
def Obligations.UnknownChannelIsIgnored : Prop :=
  (∀ (s : State) (c : List Byte) (now : Time), cbyte s.cfg c 0 ≠ s.cfg.chConfig →
    cbyte s.cfg c 0 ≠ s.cfg.chFeature → exec (.evCmdIn c now) s = .next s)
  ∧ ∀ (s : State) (channel : Byte) (now : Time), exec (.cmdIgnored channel now) s = .next s

/-- 10_state.md R43 (its row CmdIn), R16 (decision D42): a command writes only session registers, without
`initialized`, and the pending reply; it drives no output. -/
def Obligations.CommandsWriteOnlySessionAndReply : Prop :=
  ∀ (i : Instr) (s : State), Instr.isCommand i = true → ∃ t : State, exec i s = .next t
    ∧ t = { s with
        playerId := t.playerId, inputMode := t.inputMode, imuEn := t.imuEn, vibEn := t.vibEn
        ready := t.ready, lastHostT := t.lastHostT
        prValid := t.prValid, prChan := t.prChan, prPayload := t.prPayload }

/-- 43_feature_channel.md R154: no feature command writes `ready`, `initialized`, InputState, the decoder, the
scheduler registers or any output port. -/
def Obligations.FeatureCommandsAreConfined : Prop :=
  ∀ (s : State) (c : List Byte) (now : Time), s.cfg.valid = true → cbyte s.cfg c 0 = s.cfg.chFeature →
    ∃ t : State, exec (.evCmdIn c now) s = .next t
      ∧ t = { s with
          playerId := t.playerId, inputMode := t.inputMode, imuEn := t.imuEn, vibEn := t.vibEn
          lastHostT := t.lastHostT, prValid := t.prValid, prChan := t.prChan, prPayload := t.prPayload }

/-- 43_feature_channel.md R155 (derived): the reply of a command depends on the word, `player_id`, the parameters and
the draw alone, and what it writes to `player_id`, `input_mode`, `imu_en`, `vib_en` and `ready` on the word and the
parameters alone. Of the other two session registers no command writes `initialized`, and `last_host_t` is each run's
own `now`. -/
def Obligations.RepliesDependOnlyOnWordAndIdentity : Prop :=
  ∀ (s s' t t' : State) (c : List Byte) (now now' : Time), s.cfg = s'.cfg →
    (cbyte s.cfg c 0 = s.cfg.chConfig ∨ cbyte s.cfg c 0 = s.cfg.chFeature) →
    exec (.evCmdIn c now) s = .next t → exec (.evCmdIn c now') s' = .next t' →
    (s.playerId = s'.playerId → s.idLow = s'.idLow → t.prChan = t'.prChan ∧ t.prPayload = t'.prPayload)
    ∧ (t.playerId = t'.playerId ∨ (t.playerId = s.playerId ∧ t'.playerId = s'.playerId))
    ∧ (t.inputMode = t'.inputMode ∨ (t.inputMode = s.inputMode ∧ t'.inputMode = s'.inputMode))
    ∧ (t.imuEn = t'.imuEn ∨ (t.imuEn = s.imuEn ∧ t'.imuEn = s'.imuEn))
    ∧ (t.vibEn = t'.vibEn ∨ (t.vibEn = s.vibEn ∧ t'.vibEn = s'.vibEn))
    ∧ (t.ready = t'.ready ∨ (t.ready = s.ready ∧ t'.ready = s'.ready))

/-! ## Virtual Flash -/

/-- 20_memory.md R51, R54: an address is its bank and its offset; every address and every n give n bytes. -/
def Obligations.FlashReadNeverFails : Prop :=
  ∀ (p : Params) (a : Addr) (n : Nat),
    (bankOf a).toNat + offsetOf a = a.toNat ∧ (bankOf a).toNat % 256 = 0 ∧ offsetOf a < 256
    ∧ (vfRead p a n).length = n ∧ vfRead p a 0 = []

/-- 20_memory.md R53, R55 (decision D31; R55 derived): inside a mapped bank the exact blob bytes, past the blob and in
an absent bank the fill byte. -/
def Obligations.FlashReadReturnsBlobBytes : Prop :=
  ∀ (p : Params) (a : Addr) (n : Nat), p.valid = true →
    (∀ e ∈ p.flashMap, e.bank = bankOf a →
      vfRead p a n = ((e.bytes.drop (offsetOf a)).take n)
        ++ List.replicate (n - (e.bytes.length - offsetOf a)) p.vfFill)
    ∧ ((∀ e ∈ p.flashMap, e.bank ≠ bankOf a) → vfRead p a n = List.replicate n p.vfFill)

/-- 20_memory.md R48, R52, R53 (decision D31): reading through the banks is reading a flat, canonical memory of cells
byte by byte within the start address's 256-byte bank, an unlisted address reading the fill byte. The flat view is the
model's (log 14). -/
def Obligations.BankedReadIsFlatMemoryRead : Prop :=
  ∀ (p : Params) (a : Addr) (n : Nat), p.valid = true →
    Memory.wf p.vfFill (flashImage p) = true
    ∧ vfRead p a n = (List.range n).map fun i =>
        if a.toNat % 256 + i < 256 then Memory.read p.vfFill (flashImage p) (a.toNat + i) else p.vfFill

/-! ## Report scheduler -/

/-- 44_report_scheduler.md R160: when due with a reply pending, the reply is framed by its channel and, if the
transport is ready, sent and cleared, whatever `ready` and `initialized` are. What sending writes is R163 (decisions
D19, D21), `wake_req` R158 (decision D39). -/
def Obligations.DueTickSendsThePendingReply : Prop :=
  ∀ (s : State) (now : Time) (txReady suspended : Bool),
    s.cfg.sendIntervalMs ≤ (now - s.lastSentT).toNat → s.prValid = true →
    exec (.evTick now txReady suspended) s = .next (
      if txReady then
        { s with
          prValid := false, lastSentT := now, ctr := s.ctr + 1
          outputs := s.outputs ++ [.wakeReq suspended, .usbTx (frameReply s s.prChan s.prPayload)] }
      else { s with outputs := s.outputs ++ [.wakeReq suspended] })

/-- 44_report_scheduler.md R161, 41_report_builder.md R119 (decision D20; 90_conflicts.md C7): when due, ready and
with no reply pending, the input report is sent and becomes the snapshot, unless a valid snapshot equals it in every
byte but byte 1. -/
def Obligations.DueTickSendsAChangedInputReport : Prop :=
  ∀ (s : State) (now : Time) (txReady suspended : Bool),
    s.cfg.sendIntervalMs ≤ (now - s.lastSentT).toNat → s.prValid = false → s.ready = true →
    ((s.snapValid = true ∧ ∀ i, i < s.cfg.reportLen → i ≠ 1 →
        (buildInput s.cfg s.input s.ctr).getD i 0 = s.snap.getD i 0) →
      exec (.evTick now txReady suspended) s
        = .next { s with outputs := s.outputs ++ [.wakeReq suspended] })
    ∧ (¬ (s.snapValid = true ∧ ∀ i, i < s.cfg.reportLen → i ≠ 1 →
        (buildInput s.cfg s.input s.ctr).getD i 0 = s.snap.getD i 0) →
      exec (.evTick now txReady suspended) s = .next (
        if txReady then
          { s with
            snap := buildInput s.cfg s.input s.ctr, snapValid := true
            lastSentT := now, ctr := s.ctr + 1
            outputs := s.outputs ++ [.wakeReq suspended, .usbTx (buildInput s.cfg s.input s.ctr)] }
        else { s with outputs := s.outputs ++ [.wakeReq suspended] }))

/-- 44_report_scheduler.md R162 (decision D34, general knowledge): when due, with no reply pending, not ready and not
initialized, the identification report is sent and `initialized` set, if the transport is ready. -/
def Obligations.DueTickSendsTheIdentification : Prop :=
  ∀ (s : State) (now : Time) (txReady suspended : Bool),
    s.cfg.sendIntervalMs ≤ (now - s.lastSentT).toNat → s.prValid = false → s.ready = false →
    s.initialized = false →
    exec (.evTick now txReady suspended) s = .next (
      if txReady then
        { s with
          initialized := true, lastSentT := now, ctr := s.ctr + 1
          outputs := s.outputs ++ [.wakeReq suspended, .usbTx (frameReply s .cfg
            [s.cfg.cfgCodes.identify, 0x00, s.cfg.ctrlType, s.idLow.b2, s.idLow.b1, s.idLow.b0,
             s.cfg.idTop.b2, s.cfg.idTop.b1, s.cfg.idTop.b0])] }
      else { s with outputs := s.outputs ++ [.wakeReq suspended] })

/-- 44_report_scheduler.md R158, R159, R165, R166 (decisions D21, D23, D39): a Tick that is not due, a Tick the
transport is not ready for, and the quiet case drive `wake_req` with `suspended` and change no register. -/
def Obligations.TickThatMaySendNothingOnlyWakes : Prop :=
  ∀ (s : State) (now : Time) (txReady suspended : Bool),
    ((now - s.lastSentT).toNat < s.cfg.sendIntervalMs ∨ txReady = false
      ∨ (s.prValid = false ∧ s.ready = false ∧ s.initialized = true)) →
    exec (.evTick now txReady suspended) s
      = .next { s with outputs := s.outputs ++ [.wakeReq suspended] }

/-- 44_report_scheduler.md R163 (decisions D19, D21), R170, R171 (derived), 60_exceptions.md R181 (decision D40): a
report leaves SPPB only in a due Tick with the transport ready, one report of `REPORT_LEN` bytes at a time; that Tick
stamps `last_sent_t` and steps the counter, and nothing else but PowerOn writes the two. -/
def Obligations.ReportsLeaveOnlyInDueTicks : Prop :=
  ∀ (i : Instr) (s : State), s.cfg.valid = true → ∃ t : State, exec i s = .next t
    ∧ (reportsOf t.outputs = reportsOf s.outputs
          ∧ ((t.lastSentT = s.lastSentT ∧ t.ctr = s.ctr) ∨ ∃ draw, i = .evPowerOn draw)
        ∨ ∃ (now : Time) (suspended : Bool) (report : List Byte), i = .evTick now true suspended
            ∧ s.cfg.sendIntervalMs ≤ (now - s.lastSentT).toNat
            ∧ reportsOf t.outputs = reportsOf s.outputs ++ [report] ∧ report.length = s.cfg.reportLen
            ∧ t.lastSentT = now ∧ t.ctr = s.ctr + 1)

/-- 44_report_scheduler.md R168 (derived): from a ready state with no reply pending, any run of Ticks with the
transport ready sends at most one input report: none where the report equals the snapshot, exactly one where it does
not and a Tick is due. -/
def Obligations.UnchangedInputIsSentAtMostOnce : Prop :=
  ∀ (s : State) (ticks : List (Time × Bool)), s.ready = true → s.prValid = false →
    ∃ t : State, execAll (ticks.map fun tk => Instr.evTick tk.1 true tk.2) s = .next t
      ∧ t.input = s.input
      ∧ (reportsOf t.outputs).length ≤ (reportsOf s.outputs).length + 1
      ∧ (s.snapValid = true ∧ same s.cfg.reportLen (buildInput s.cfg s.input s.ctr) s.snap = true →
          reportsOf t.outputs = reportsOf s.outputs)
      ∧ (¬ (s.snapValid = true ∧ same s.cfg.reportLen (buildInput s.cfg s.input s.ctr) s.snap = true) →
          (∃ tk ∈ ticks, s.cfg.sendIntervalMs ≤ (tk.1 - s.lastSentT).toNat) →
          reportsOf t.outputs = reportsOf s.outputs ++ [buildInput s.cfg s.input s.ctr])

/-! ## Rumble relay -/

/-- 45_rumble_relay.md R172 (decision D41), R173 (derived), 30_encoding.md R91: RumbleIn, and the row RUMBLE_FRAME
(log 11), append the 11 bytes of the frame to `serial_tx`, the last the sum mod 256 of the ten before it, and change
no register. -/
def Obligations.RumbleIsRelayedWithItsChecksum : Prop :=
  ∀ (s : State) (r : Haptic) (now : Time), ∃ (t : State) (sum : Byte),
    exec (.evRumbleIn r now) s = .next t ∧ exec (.rumbleFrame r) s = .next t
    ∧ t = { s with outputs := s.outputs ++ [.serialTx
        [s.cfg.rumbleHdr, s.cfg.rumbleType, r.r0, r.r1, r.r2, r.r3, r.r4, r.r5, r.r6, r.r7, sum]] }
    ∧ sum.toNat = (s.cfg.rumbleHdr.toNat + s.cfg.rumbleType.toNat + r.r0.toNat + r.r1.toNat + r.r2.toNat
        + r.r3.toNat + r.r4.toNat + r.r5.toNat + r.r6.toNat + r.r7.toNat) % 256

/-! ## The whole machine -/

/-- 60_exceptions.md R175: no instruction raises anything, whatever its operands: every one answers a next state in
every state. -/
def Obligations.EveryInstructionCompletes : Prop :=
  ∀ (i : Instr) (s : State), ∃ t : State, exec i s = .next t

/-- 40_frame_decoder.md R107 (decision D42), 45_rumble_relay.md R174 (decisions D41, D44), 60_exceptions.md R192
(decision D1): nothing SPPB does depends on what its ports were driven with before. That the record of the outputs is a
list in the state, to which every event, PowerOn included, only appends what it drives, is the model's choice
(log 8). -/
def Obligations.OutputsAreNeverReadBack : Prop :=
  ∀ (i : Instr) (s : State), ∃ (t : State) (driven : List Output),
    exec i s = .next t ∧ t.outputs = s.outputs ++ driven
    ∧ ∀ before : List Output,
        exec i { s with outputs := before } = .next { t with outputs := before ++ driven }

/-- 10_state.md R32: `ready` is 0 at reset; only disable-host-timeout sets it, from every state; only LinkReset and
PowerOn clear it, and both do; Tick reads it. How Tick reads it is the spec's own choice (log 4): a due Tick
(44_report_scheduler.md R159, decision D21) with no reply pending and no valid snapshot sends the input report if it is
set (R161, decision D20), and sends nothing if it is clear and the identification is done (R166, derived). -/
def Obligations.ReadyIsSetOnlyByDisableTimeout : Prop :=
  State.reset.ready = false
  ∧ (∀ (i : Instr) (s t : State), exec i s = .next t → s.ready = false → t.ready = true →
    (∃ now, i = .cfgDisableTimeout now)
    ∨ ∃ c now, i = .evCmdIn c now ∧ cbyte s.cfg c 0 = s.cfg.chConfig
        ∧ cbyte s.cfg c s.cfg.cfgSelOff = s.cfg.cfgCodes.disableTimeout)
  ∧ (∀ (i : Instr) (s t : State), exec i s = .next t → s.ready = true → t.ready = false →
    i = .evLinkReset ∨ ∃ draw, i = .evPowerOn draw)
  ∧ (∀ (s : State) (draw : IdBytes) (now : Time),
      (∃ t, exec .evLinkReset s = .next t ∧ t.ready = false)
      ∧ (∃ t, exec (.evPowerOn draw) s = .next t ∧ t.ready = false)
      ∧ ∃ t, exec (.cfgDisableTimeout now) s = .next t ∧ t.ready = true)
  ∧ ∀ (s : State) (now : Time) (suspended : Bool), s.cfg.sendIntervalMs ≤ (now - s.lastSentT).toNat →
      s.prValid = false → s.snapValid = false → s.initialized = true → ∃ t t' : State,
      exec (.evTick now true suspended) { s with ready := true } = .next t
      ∧ reportsOf t.outputs = reportsOf s.outputs ++ [buildInput s.cfg s.input s.ctr]
      ∧ exec (.evTick now true suspended) { s with ready := false } = .next t'
      ∧ reportsOf t'.outputs = reportsOf s.outputs

/-- 10_state.md R33: `initialized` is 0 at reset; only the Tick whose identification report the transport accepts sets
it, and that Tick does; only LinkReset and PowerOn clear it, and both do; Tick reads it. What the identification report
is (44_report_scheduler.md R162, decision D34, general knowledge, log 5; its framing R164, decision D24), when a Tick is
due (R159, decision D21) and that a Tick with `initialized` set sends nothing (R166, derived) are the spec's own
choices (log 4). -/
def Obligations.InitializedIsSetOnlyByIdentification : Prop :=
  State.reset.initialized = false
  ∧ (∀ (i : Instr) (s t : State), exec i s = .next t → s.initialized = false → t.initialized = true →
    ∃ now suspended, i = .evTick now true suspended ∧ s.prValid = false ∧ s.ready = false
      ∧ reportsOf t.outputs = reportsOf s.outputs ++ [frameReply s .cfg (identPayload s.cfg s.idLow)])
  ∧ (∀ (s t : State) (now : Time) (txReady suspended : Bool), s.prValid = false → s.ready = false →
      exec (.evTick now txReady suspended) s = .next t →
      reportsOf t.outputs = reportsOf s.outputs ++ [frameReply s .cfg (identPayload s.cfg s.idLow)] →
      t.initialized = true)
  ∧ (∀ (i : Instr) (s t : State), exec i s = .next t → s.initialized = true → t.initialized = false →
    i = .evLinkReset ∨ ∃ draw, i = .evPowerOn draw)
  ∧ (∀ (s : State) (draw : IdBytes),
      (∃ t, exec .evLinkReset s = .next t ∧ t.initialized = false)
      ∧ ∃ t, exec (.evPowerOn draw) s = .next t ∧ t.initialized = false)
  ∧ ∀ (s : State) (now : Time) (suspended : Bool), s.cfg.sendIntervalMs ≤ (now - s.lastSentT).toNat →
      s.prValid = false → s.ready = false → ∃ t t' : State,
      exec (.evTick now true suspended) { s with initialized := false } = .next t ∧ t.initialized = true
      ∧ reportsOf t.outputs = reportsOf s.outputs ++ [frameReply s .cfg (identPayload s.cfg s.idLow)]
      ∧ exec (.evTick now true suspended) { s with initialized := true } = .next t'
      ∧ reportsOf t'.outputs = reportsOf s.outputs

/-- 00_scope.md R9, 20_memory.md R48 (decision D33): no event writes a parameter or a byte of the flash; `ID_LOW`
changes only at PowerOn, to its draw; no event takes from or adds to what the host offers (log 7). -/
def Obligations.ParametersAndFlashAreConstant : Prop :=
  ∀ (i : Instr) (s : State), ∃ t : State, exec i s = .next t
    ∧ t.cfg = s.cfg ∧ (∀ a : Addr, flashByte t.cfg a = flashByte s.cfg a) ∧ t.inbox = s.inbox
    ∧ t.idLow = (match i with | .evPowerOn draw => draw | _ => s.idLow)

/-! ## Decoding and the step -/

/-- 30_encoding.md R68 to R91 (decisions D3, D5, D6, D26, D27, D37, D44, D46; general knowledge): decoding the
encoding of a well-formed instruction gives it back, with nothing left over. The ports the words stand on are the
model's where the spec has none: a command row's own (log 9), the output frame's (log 11). -/
def Obligations.DecodeOfEncodeIsTheInstruction : Prop :=
  ∀ (p : Params) (i : Instr), p.valid = true → i.wf p = true → decode p (encode p i) = .ok (i, [])

/-- 30_encoding.md R87 (derived) to R90 (decisions D5, D6, D10, D11): every word of an input port decodes, and to a
well-formed instruction. The word left out, `serialOut`, stands on the model's output-frame port (log 11). -/
def Obligations.EveryInputWordDecodesWellFormed : Prop :=
  ∀ (p : Params) (w : PortWord), p.valid = true → (∀ bytes, w ≠ .serialOut bytes) →
    ∃ (i : Instr) (left : List PortWord), decode p w = .ok (i, left) ∧ i.wf p = true

/-- Words written out from 30_encoding.md R76, R77, R68, R69 and the codes of R86 (decisions D3, D5, D6, D26, D27, D37,
D46; general knowledge), in the reference configuration and with legacy frames. That a command word may be offered as
its row is the model's choice (log 9), and so is the last clause: SPPB receives no rumble frame, and the port it is
decoded from is the model's (log 11); its bytes are those of R91. -/
def Obligations.SpecWordsDecode : Prop :=
  decode Params.refcfg (.cmdWord [0x80, 0x04] 20) = .ok (.cfgDisableTimeout 20, [])
  ∧ decode Params.refcfg (.cmdWord [0x80, 0x7F] 5) = .ok (.cfgDefault 0x7F 5, [])
  ∧ decode Params.refcfg (.cmdWord [0x01, 0, 0, 0, 0, 0, 0, 0, 0, 0, 0x10, 0x10, 0x60, 0x00, 0x00, 0x04] 0)
      = .ok (.featSpiRead 0x00006010 0x04 0, [])
  ∧ decode Params.refcfg (.cmdWord [0x01, 0, 0, 0, 0, 0, 0, 0, 0, 0, 0x30, 0x05] 0)
      = .ok (.featSetPlayerLights 0x05 0, [])
  ∧ decode Params.refcfg (.cmdWord [0x02, 0x01] 0) = .ok (.cmdIgnored 0x02 0, [])
  ∧ decode Params.refcfg (.serialIn 0xAA [0x02, 0x09, 0x00, 0x10, 0x05, 0x00, 0x40, 0xC0, 0xFF, 0x11, 0x22, 0x33] 0)
      = .ok (.frameLenpfx 0x02 ⟨0x00, 0x10, 0x05, 0x00, 0x40, 0xC0, 0xFF⟩ [0x11, 0x22] 0x33 0, [])
  ∧ decode { Params.refcfg with frameFmt := .legacy8 } (.serialIn 0xAA [0x01, 0x00, 0x00, 0x80, 0x80, 0x80, 0x80] 0)
      = .ok (.frameLegacy8 ⟨0x01, 0x00, 0x00, 0x80, 0x80, 0x80, 0x80⟩ 0, [])
  ∧ decode Params.refcfg (.serialOut [0xBB, 0x01, 0x00, 0x01, 0x40, 0x40, 0x00, 0x01, 0x40, 0x40, 0xBE])
      = .ok (.rumbleFrame ⟨0x00, 0x01, 0x40, 0x40, 0x00, 0x01, 0x40, 0x40⟩, [])

/-- A step runs the instruction its next word decodes to, on the state with that instruction taken from the inbox (log
7). -/
def Obligations.StepRunsTheDecodedInstruction : Prop :=
  ∀ (s : State) (word : PortWord) (later left : List PortWord) (i : Instr), s.cfg.valid = true →
    s.inbox = word :: later → decode s.cfg word = .ok (i, left) →
    step s = exec i { s with inbox := left ++ later }

/-- 60_exceptions.md R177 (decision D1), R186 (decisions D7, D21): with nothing offered nothing changes; a
configuration that is no instance is refused; every word of an input port gives a next state. Bytes on the model's
output-frame port that are no rumble frame are refused by name (log 11). -/
def Obligations.StepRefusesOnlyBadConfigurations : Prop :=
  (∀ s : State, s.cfg.valid = true → s.inbox = [] → step s = .next s)
  ∧ (∀ s : State, s.cfg.valid = false → step s = .refused .badConfiguration)
  ∧ (∀ s : State, s.cfg.valid = true → (∀ bytes later, s.inbox ≠ .serialOut bytes :: later) →
      ∃ t : State, step s = .next t)
  ∧ ∀ (s : State) (bytes : List Byte) (later : List PortWord), s.cfg.valid = true →
      s.inbox = .serialOut bytes :: later → (∀ r, bytes ≠ rumbleFrameBytes s.cfg r) →
      ∃ why, step s = .refused (.undecodable why)
end

