-- ==== Sys2Proof/Laws/Configuration.lean ====
section
/-! SUPPORT. What a valid configuration is, constraint by constraint (00_scope.md R8). -/

namespace Sys2Proof

/-- The constraints of 00_scope.md R8, named. -/
structure Params.Constraints (p : Params) : Prop where
  btnNodup : p.btnMap.Nodup
  btnLength : p.btnMap.length = 14
  minFrame : 11 ≤ p.fdMinFrame
  minLeCap : p.fdMinFrame ≤ p.fdBufCap
  capLe : p.fdBufCap ≤ 259
  dirZero : p.dirFlags 0x00 = ⟨false, false, false, false⟩
  leftX : p.cal.leftX.ordered = true
  leftY : p.cal.leftY.ordered = true
  rightX : p.cal.rightX.ordered = true
  rightY : p.cal.rightY.ordered = true
  interval : 1 ≤ p.sendIntervalMs
  channels : p.chConfig ≠ p.chFeature
  cfgOff : p.cfgSelOff < p.cmdLenMax
  featOff : p.featSelOff + 5 < p.cmdLenMax
  cfgCodes : (CfgCmd.all.map p.cfgCodes.at).Nodup
  featCodes : (FeatCmd.all.map p.featCodes.at).Nodup
  spiRead : p.spiReadMax + 20 ≤ p.reportLen
  banksAligned : ∀ e ∈ p.flashMap, e.bank.toNat % 256 = 0 ∧ e.bytes.length ≤ 256
  banksDistinct : (p.flashMap.map FlashEntry.bank).Nodup

theorem FlashEntry.aligned_iff (e : FlashEntry) :
    e.aligned = true ↔ e.bank.toNat % 256 = 0 ∧ e.bytes.length ≤ 256 := by
  simp only [FlashEntry.aligned, Bool.and_eq_true, decide_eq_true_eq, List.isEmpty_iff, List.drop_eq_nil_iff]
  rfl

theorem Calibration.ordered_iff (c : Calibration) :
    c.ordered = true ↔ c.min.toNat ≤ c.center.toNat ∧ c.center.toNat ≤ c.max.toNat := by
  simp [Calibration.ordered]

theorem Params.valid_iff (p : Params) : p.valid = true ↔ p.Constraints := by
  simp only [Params.valid, List.all_cons, List.all_nil, id, Bool.and_eq_true, decide_eq_true_eq, beq_iff_eq,
    bne_iff_ne, List.all_eq_true, FlashEntry.aligned_iff, and_true]
  constructor
  · rintro ⟨h1, h2, h3, h4, h5, h6, h7, h8, h9, h10, h11, h12, h13, h14, h15, h16, h17, h18, h19⟩
    exact ⟨h1, h2, h3, h4, h5, h6, h7, h8, h9, h10, h11, h12, h13, h14, h15, h16, h17, h18, h19⟩
  · rintro ⟨h1, h2, h3, h4, h5, h6, h7, h8, h9, h10, h11, h12, h13, h14, h15, h16, h17, h18, h19⟩
    exact ⟨h1, h2, h3, h4, h5, h6, h7, h8, h9, h10, h11, h12, h13, h14, h15, h16, h17, h18, h19⟩

theorem CfgCmd.mem_all (cmd : CfgCmd) : cmd ∈ CfgCmd.all := by cases cmd <;> decide

theorem FeatCmd.mem_all (cmd : FeatCmd) : cmd ∈ FeatCmd.all := by cases cmd <;> decide

/-- In a list of distinct keys a key finds its own element. -/
theorem find_key_of_nodup {α : Type} (key : α → Byte) (l : List α) (x : α) (h : (l.map key).Nodup) (hx : x ∈ l) :
    l.find? (fun y => key y == key x) = some x := by
  induction l with
  | nil => cases hx
  | cons y l ih =>
    rw [List.map_cons, List.nodup_cons] at h
    rcases List.mem_cons.1 hx with rfl | hx
    · simp
    · have hne : key y ≠ key x := fun he => h.1 (he ▸ List.mem_map_of_mem hx)
      rw [List.find?_cons_of_neg (by simpa using hne)]
      exact ih h.2 hx

end Sys2Proof
end

