-- ==== Sys2Proof/Laws/Flash.lean ====
section
/-! SUPPORT. The laws of the flash: every memory operation keeps the canonical form, a byte written is read back and
leaves every other byte alone, and a bank look-up finds its one entry. -/

namespace Sys2Proof.Machine

@[simp] theorem vfRead_length (p : Params) (a : Addr) (n : Nat) : (vfRead p a n).length = n := by
  simp [vfRead]

theorem Memory.wfAbove_mono {fill : Byte} {low low' : Nat} {m : Memory} (h : low' ≤ low)
    (hw : Memory.wfAbove fill low m = true) : Memory.wfAbove fill low' m = true := by
  cases m with
  | nil => rfl
  | cons c m =>
    simp only [Memory.wfAbove, Bool.and_eq_true, decide_eq_true_eq] at hw ⊢
    exact ⟨⟨by omega, hw.1.2⟩, hw.2⟩

/-- Writing keeps the canonical form. -/
theorem Memory.wfAbove_write {fill : Byte} {m : Memory} {low a : Nat} {v : Byte} (ha : low ≤ a)
    (h : Memory.wfAbove fill low m = true) : Memory.wfAbove fill low (Memory.write fill m a v) = true := by
  induction m generalizing low with
  | nil =>
    by_cases hv : v = fill
    · simp [Memory.write, hv, Memory.wfAbove]
    · simp [Memory.write, hv, Memory.wfAbove, ha]
  | cons c m ih =>
    obtain ⟨k, w⟩ := c
    simp only [Memory.wfAbove, Bool.and_eq_true, decide_eq_true_eq, bne_iff_ne] at h
    obtain ⟨⟨hk, hw⟩, hm⟩ := h
    simp only [Memory.write]
    split
    · split
      · simp [Memory.wfAbove, hk, hw, hm]
      · rename_i hlt hv
        simp [Memory.wfAbove, ha, hv, hw, hm]
        omega
    · split
      · rename_i heq
        subst heq
        split
        · exact Memory.wfAbove_mono (by omega) hm
        · rename_i hv
          simp [Memory.wfAbove, ha, hv, hm]
      · simp only [Memory.wfAbove, Bool.and_eq_true, decide_eq_true_eq, bne_iff_ne]
        exact ⟨⟨hk, hw⟩, ih (by omega) hm⟩

theorem Memory.wf_write {fill : Byte} {m : Memory} (a : Nat) (v : Byte) (h : Memory.wf fill m = true) :
    Memory.wf fill (Memory.write fill m a v) = true :=
  Memory.wfAbove_write (Nat.zero_le a) h

theorem Memory.wf_load {fill : Byte} {m : Memory} (a : Nat) (bs : List Byte) (h : Memory.wf fill m = true) :
    Memory.wf fill (Memory.load fill m a bs) = true := by
  induction bs generalizing m a with
  | nil => exact h
  | cons b bs ih => exact ih _ (Memory.wf_write a b h)

/-- An address below every listed one is unlisted. -/
theorem Memory.read_of_wfAbove {fill : Byte} {m : Memory} {low a : Nat} (h : Memory.wfAbove fill low m = true)
    (ha : a < low) : Memory.read fill m a = fill := by
  induction m generalizing low with
  | nil => rfl
  | cons c m ih =>
    simp only [Memory.wfAbove, Bool.and_eq_true, decide_eq_true_eq] at h
    have hne : ¬ c.1 = a := by omega
    rw [Memory.read, if_neg hne]
    exact ih h.2 (by omega)

/-- What a byte reads after a write. -/
theorem Memory.read_write_above {fill : Byte} {m : Memory} {low : Nat} (a : Nat) (v : Byte) (x : Nat)
    (h : Memory.wfAbove fill low m = true) :
    Memory.read fill (Memory.write fill m a v) x = if x = a then v else Memory.read fill m x := by
  induction m generalizing low with
  | nil =>
    simp only [Memory.write]
    split
    · rename_i hv
      simp [Memory.read, hv]
    · simp [Memory.read, eq_comm]
  | cons c m ih =>
    obtain ⟨k, w⟩ := c
    simp only [Memory.wfAbove, Bool.and_eq_true, decide_eq_true_eq] at h
    simp only [Memory.write]
    split
    · rename_i hlt
      split
      · rename_i hv
        subst hv
        by_cases hx : x = a
        · subst hx
          rw [if_pos rfl, Memory.read, if_neg (by omega)]
          exact Memory.read_of_wfAbove h.2 (by omega)
        · rw [if_neg hx]
      · by_cases hx : x = a
        · subst hx
          simp [Memory.read]
        · have : ¬ a = x := fun e => hx e.symm
          simp [Memory.read, hx, this]
    · rename_i hnlt
      split
      · rename_i heq
        subst heq
        split
        · rename_i hv
          subst hv
          by_cases hx : x = a
          · subst hx
            rw [if_pos rfl]
            exact Memory.read_of_wfAbove h.2 (by omega)
          · rw [if_neg hx, Memory.read, if_neg (fun e => hx e.symm)]
        · by_cases hx : x = a
          · subst hx
            simp [Memory.read]
          · have : ¬ a = x := fun e => hx e.symm
            simp [Memory.read, hx, this]
      · rename_i hne
        by_cases hk : k = x
        · subst hk
          simp [Memory.read]
          omega
        · simp only [Memory.read, if_neg hk]
          exact ih h.2

theorem Memory.read_write {fill : Byte} {m : Memory} (h : Memory.wf fill m = true) (a : Nat) (v : Byte) (x : Nat) :
    Memory.read fill (Memory.write fill m a v) x = if x = a then v else Memory.read fill m x :=
  Memory.read_write_above a v x h

/-- What a byte reads after a byte sequence was written. -/
theorem Memory.read_load {fill : Byte} {m : Memory} (h : Memory.wf fill m = true) (a : Nat) (bs : List Byte)
    (x : Nat) :
    Memory.read fill (Memory.load fill m a bs) x
      = if a ≤ x ∧ x < a + bs.length then bs.getD (x - a) fill else Memory.read fill m x := by
  induction bs generalizing m a with
  | nil =>
    have : ¬ (a ≤ x ∧ x < a) := by omega
    simp [Memory.load, this]
  | cons b bs ih =>
    rw [Memory.load, ih (Memory.wf_write a b h), Memory.read_write h]
    by_cases hx : x = a
    · subst hx
      simp
    · rw [if_neg hx]
      by_cases hin : a ≤ x ∧ x < a + (b :: bs).length
      · have hin' : a + 1 ≤ x ∧ x < a + 1 + bs.length := by
          simp only [List.length_cons] at hin
          omega
        rw [if_pos hin, if_pos hin']
        obtain ⟨d, rfl⟩ : ∃ d, x = a + 1 + d := ⟨x - (a + 1), by omega⟩
        have h1 : a + 1 + d - (a + 1) = d := by omega
        have h2 : a + 1 + d - a = d + 1 := by omega
        rw [h1, h2]
        rfl
      · have hin' : ¬ (a + 1 ≤ x ∧ x < a + 1 + bs.length) := by
          simp only [List.length_cons] at hin
          omega
        rw [if_neg hin, if_neg hin']

/-- The memory of a list of banks is canonical. -/
theorem wf_foldl_load (fill : Byte) (banks : List FlashEntry) {m : Memory} (h : Memory.wf fill m = true) :
    Memory.wf fill (banks.foldl (fun m e => Memory.load fill m e.bank.toNat e.bytes) m) = true := by
  induction banks generalizing m with
  | nil => exact h
  | cons e banks ih => exact ih (Memory.wf_load _ _ h)

/-- An address is its bank and its offset. -/
theorem offsetOf_eq (a : Addr) : offsetOf a = a.toNat % 256 := by
  simp [offsetOf]

/-- Clearing the low 8 bits is shifting them out and back. -/
theorem bankOf_eq_shift (a : Addr) : bankOf a = (a >>> 8) <<< 8 := by
  apply BitVec.eq_of_getElem_eq
  intro i hi
  rw [bankOf, BitVec.getElem_and, BitVec.getElem_shiftLeft, BitVec.getElem_ushiftRight]
  interval_cases i <;> simp [← BitVec.getLsbD_eq_getElem]

theorem bankOf_toNat (a : Addr) : (bankOf a).toNat = a.toNat - a.toNat % 256 := by
  rw [bankOf_eq_shift]
  have := a.isLt
  simp [Nat.shiftRight_eq_div_pow, Nat.shiftLeft_eq]
  omega

/-- A bank's entry is the one the look-up finds. -/
theorem flashLookup_of_mem {p : Params} (h : p.Constraints) {e : FlashEntry} (he : e ∈ p.flashMap) :
    flashLookup p e.bank = some e := by
  have key : ∀ l : List FlashEntry, (l.map FlashEntry.bank).Nodup → e ∈ l →
      l.find? (fun x => x.bank == e.bank) = some e := by
    intro l hl hm
    induction l with
    | nil => cases hm
    | cons y l ih =>
      rw [List.map_cons, List.nodup_cons] at hl
      rcases List.mem_cons.1 hm with rfl | hm
      · simp
      · have hne : y.bank ≠ e.bank := fun hb => hl.1 (hb ▸ List.mem_map_of_mem hm)
        rw [List.find?_cons_of_neg (by simpa using hne)]
        exact ih hl.2 hm
  exact key _ h.banksDistinct he

theorem flashLookup_eq_none {p : Params} {bank : Addr} (h : ∀ e ∈ p.flashMap, e.bank ≠ bank) :
    flashLookup p bank = none := by
  simpa [flashLookup] using h

end Sys2Proof.Machine
end

