-- ==== Sys2Proof/Laws/Operands.lean ====
section
/-! SUPPORT. The small lemmas of the operand forms: command bytes, selectors, addresses, frame fields. -/

namespace Sys2Proof.Machine

theorem expand_eq_append (v : Byte) : expand v = v ++ v := by
  ext i hi
  simp [expand]
  grind

theorem buttonMask_eq_append (fb : FieldBlock) : buttonMask fb = fb.buttonsHi ++ fb.buttonsLo := by
  ext i hi
  simp [buttonMask]
  grind

theorem addrOfBytes_eq_append (b0 b1 b2 b3 : Byte) :
    addrOfBytes b0 b1 b2 b3 = b3 ++ (b2 ++ (b1 ++ b0)) := by
  ext i hi
  simp [addrOfBytes]
  grind

theorem addrOfBytes_toNat (b0 b1 b2 b3 : Byte) :
    (addrOfBytes b0 b1 b2 b3).toNat
      = b0.toNat + 256 * b1.toNat + 65536 * b2.toNat + 16777216 * b3.toNat := by
  rw [addrOfBytes_eq_append]
  simp only [BitVec.toNat_append]
  have h0 := b0.isLt
  have h1 := b1.isLt
  have h2 := b2.isLt
  have h10 : b1.toNat <<< 8 + b0.toNat < 2 ^ (8 + 8) := by
    rw [Nat.shiftLeft_eq]
    omega
  have h210 : b2.toNat <<< (8 + 8) + (b1.toNat <<< 8 + b0.toNat) < 2 ^ (8 + (8 + 8)) := by
    simp only [Nat.shiftLeft_eq]
    omega
  rw [← Nat.shiftLeft_add_eq_or_of_lt h0, ← Nat.shiftLeft_add_eq_or_of_lt h10,
    ← Nat.shiftLeft_add_eq_or_of_lt h210]
  simp only [Nat.shiftLeft_eq]
  omega

theorem addrByte_toNat (a : Addr) (k : Nat) : (addrByte a k).toNat = a.toNat / 2 ^ (8 * k) % 256 := by
  simp [addrByte, Nat.shiftRight_eq_div_pow]

/-- The bytes of an address give the address back. -/
theorem addrOfBytes_addrBytes (a : Addr) :
    addrOfBytes (addrByte a 0) (addrByte a 1) (addrByte a 2) (addrByte a 3) = a := by
  apply BitVec.eq_of_toNat_eq
  rw [addrOfBytes_toNat]
  simp only [addrByte_toNat]
  have := a.isLt
  omega

/-- An address gives back the four bytes it was made of. -/
theorem addrBytes_addrOfBytes (b0 b1 b2 b3 : Byte) :
    addrBytes (addrOfBytes b0 b1 b2 b3) = [b0, b1, b2, b3] := by
  have h0 := b0.isLt
  have h1 := b1.isLt
  have h2 := b2.isLt
  have h3 := b3.isLt
  simp only [addrBytes, List.cons.injEq, and_true]
  refine ⟨?_, ?_, ?_, ?_⟩ <;> apply BitVec.eq_of_toNat_eq <;> rw [addrByte_toNat, addrOfBytes_toNat] <;> omega

/-- A named configuration command is found by its code. -/
theorem selectCfg_at {p : Params} (h : p.Constraints) (cmd : CfgCmd) :
    selectCfg p (p.cfgCodes.at cmd) = some cmd :=
  find_key_of_nodup _ _ _ h.cfgCodes cmd.mem_all

/-- A named feature command is found by its code. -/
theorem selectFeat_at {p : Params} (h : p.Constraints) (cmd : FeatCmd) :
    selectFeat p (p.featCodes.at cmd) = some cmd :=
  find_key_of_nodup _ _ _ h.featCodes cmd.mem_all

theorem selectCfg_some {p : Params} {sel : Byte} {cmd : CfgCmd} (h : selectCfg p sel = some cmd) :
    p.cfgCodes.at cmd = sel := by
  simpa using List.find?_some h

theorem selectFeat_some {p : Params} {sel : Byte} {cmd : FeatCmd} (h : selectFeat p sel = some cmd) :
    p.featCodes.at cmd = sel := by
  simpa using List.find?_some h

theorem selectCfg_none {p : Params} {sel : Byte} :
    selectCfg p sel = none ↔ ∀ cmd, p.cfgCodes.at cmd ≠ sel := by
  simp [selectCfg, CfgCmd.mem_all]

theorem selectFeat_none {p : Params} {sel : Byte} :
    selectFeat p sel = none ↔ ∀ cmd, p.featCodes.at cmd ≠ sel := by
  simp [selectFeat, FeatCmd.mem_all]

/-- Byte 0 of a command word whose selector fits is the channel id. -/
theorem cbyte_commandWord_channel {p : Params} {off : Nat} {channel sel : Byte} {args : List Byte}
    (hmax : off < p.cmdLenMax) (hfit : selectorFits off channel sel = true) :
    cbyte p (commandWord off channel sel args) 0 = channel := by
  have h0 : 0 < p.cmdLenMax := by omega
  by_cases ho : off = 0
  · have : sel = channel := by simpa [selectorFits, ho] using hfit
    simp [cbyte, commandWord, h0, ho, this]
  · simp [cbyte, commandWord, h0, ho]

/-- The bytes of a command word from the selector on. -/
theorem cbyte_commandWord_at {p : Params} {off : Nat} {channel sel : Byte} {args : List Byte} {k : Nat}
    (hmax : off + k < p.cmdLenMax) :
    cbyte p (commandWord off channel sel args) (off + k) = (sel :: args).getD k 0x00 := by
  by_cases ho : off = 0
  · subst ho
    have hk : k < p.cmdLenMax := by omega
    simp [cbyte, commandWord, hk]
  · obtain ⟨m, rfl⟩ : ∃ m, off = m + 1 := ⟨off - 1, by omega⟩
    have hlen : (channel :: List.replicate m (0 : Byte)).length = m + 1 := by simp
    simp only [cbyte, commandWord, hmax, if_true, ho, if_false, Nat.add_sub_cancel]
    rw [List.getD_append_right _ _ _ _ (by simp)]
    congr 1
    simp

end Sys2Proof.Machine
end

