-- ==== Sys2Proof/Laws/Reports.lean ====
section
/-! SUPPORT. The small lemmas of the report builder: lengths, scaling, packing, `Same`. -/

namespace Sys2Proof.Machine

/-- A report has its length whatever bytes it is filled from. -/
@[simp] theorem fillReport_length (n : Nat) (bytes : List Byte) : (fillReport n bytes).length = n := by
  simp only [fillReport, List.length_take, List.length_append, List.length_replicate]
  omega

/-- Bytes that fit are followed by zeros. -/
theorem fillReport_of_fits {n : Nat} {bytes : List Byte} (h : bytes.length ≤ n) :
    fillReport n bytes = bytes ++ List.replicate (n - bytes.length) 0x00 := by
  rw [fillReport, List.take_of_length_le]
  simp only [List.length_append, List.length_replicate]
  omega

@[simp] theorem inputHead_length (p : Params) (is : InputState) (k : Byte) : (inputHead p is k).length = 12 := rfl

@[simp] theorem buildInput_length (p : Params) (is : InputState) (k : Byte) :
    (buildInput p is k).length = p.reportLen := by
  simp [buildInput]

@[simp] theorem frameReply_length (s : State) (chan : Channel) (payload : List Byte) :
    (frameReply s chan payload).length = s.cfg.reportLen := by
  cases chan <;> simp [frameReply]

/-- The clamp as naturals. -/
theorem clamp_toNat (v lo hi : Wire) : (clamp v lo hi).toNat = min (max v.toNat lo.toNat) hi.toNat := by
  simp only [clamp, BitVec.lt_def]
  split <;> split <;> omega

theorem wireOf_toNat (raw : Half) : (wireOf raw).toNat = raw.toNat / 16 := by
  have := raw.isLt
  simp [wireOf, Nat.shiftRight_eq_div_pow]
  omega

/-- The flip of the Y axis as naturals. -/
theorem flip_toNat (raw : Half) : (0xFFF - wireOf raw).toNat = 4095 - raw.toNat / 16 := by
  have h := raw.isLt
  have hw := wireOf_toNat raw
  rw [BitVec.toNat_sub, hw]
  simp
  omega

/-- `Same` compares every byte but byte 1. -/
theorem same_iff {n : Nat} {q r : List Byte} :
    same n q r = true ↔ ∀ i, i < n → i ≠ 1 → q.getD i 0x00 = r.getD i 0x00 := by
  simp only [same, List.all_eq_true, List.mem_range, Bool.or_eq_true, beq_iff_eq]
  exact ⟨fun h i hi hne => (h i hi).resolve_left hne, fun h i hi => or_iff_not_imp_left.2 (h i hi)⟩

/-- Two input reports of one InputState are the same, whatever their counters. -/
theorem same_buildInput (p : Params) (is : InputState) (k k' : Byte) :
    same p.reportLen (buildInput p is k) (buildInput p is k') = true := by
  rw [same_iff]
  intro i hi hne
  simp only [buildInput, fillReport, inputHead_length, List.getD_eq_getElem?_getD, List.getElem?_take]
  rw [if_pos hi, if_pos hi]
  match i, hne with
  | 0, _ => rfl
  | i + 2, _ => rfl

theorem same_congr_left {n : Nat} {q q' r : List Byte} (h : same n q q' = true) : same n q r = same n q' r := by
  rw [Bool.eq_iff_iff, same_iff, same_iff]
  rw [same_iff] at h
  exact ⟨fun g i hi hne => (h i hi hne).symm.trans (g i hi hne), fun g i hi hne => (h i hi hne).trans (g i hi hne)⟩

/-- The neutral and every other input section has 11 bytes, in every valid configuration. -/
theorem inputSection_length {p : Params} (h : p.Constraints) (is : InputState) : (inputSection p is).length = 11 := by
  have := h.spiRead
  simp only [inputSection, List.length_take, List.length_drop, buildInput_length]
  omega

end Sys2Proof.Machine
end

