-- ==== Sys2Proof/Laws/State.lean ====
section
/-! SUPPORT. What each named update of the state does to each field: one lemma per field per update, all by rfl, so
that no proof unfolds an update. -/

namespace Sys2Proof.Machine

@[simp] theorem drive_cfg (o : Output) (s : State) : (drive o s).cfg = s.cfg := rfl
@[simp] theorem drive_input (o : Output) (s : State) : (drive o s).input = s.input := rfl
@[simp] theorem drive_fdState (o : Output) (s : State) : (drive o s).fdState = s.fdState := rfl
@[simp] theorem drive_fdBuf (o : Output) (s : State) : (drive o s).fdBuf = s.fdBuf := rfl
@[simp] theorem drive_fdCnt (o : Output) (s : State) : (drive o s).fdCnt = s.fdCnt := rfl
@[simp] theorem drive_fdExp (o : Output) (s : State) : (drive o s).fdExp = s.fdExp := rfl
@[simp] theorem drive_fdLastT (o : Output) (s : State) : (drive o s).fdLastT = s.fdLastT := rfl
@[simp] theorem drive_playerId (o : Output) (s : State) : (drive o s).playerId = s.playerId := rfl
@[simp] theorem drive_inputMode (o : Output) (s : State) : (drive o s).inputMode = s.inputMode := rfl
@[simp] theorem drive_imuEn (o : Output) (s : State) : (drive o s).imuEn = s.imuEn := rfl
@[simp] theorem drive_vibEn (o : Output) (s : State) : (drive o s).vibEn = s.vibEn := rfl
@[simp] theorem drive_ready (o : Output) (s : State) : (drive o s).ready = s.ready := rfl
@[simp] theorem drive_initialized (o : Output) (s : State) : (drive o s).initialized = s.initialized := rfl
@[simp] theorem drive_lastHostT (o : Output) (s : State) : (drive o s).lastHostT = s.lastHostT := rfl
@[simp] theorem drive_prValid (o : Output) (s : State) : (drive o s).prValid = s.prValid := rfl
@[simp] theorem drive_prChan (o : Output) (s : State) : (drive o s).prChan = s.prChan := rfl
@[simp] theorem drive_prPayload (o : Output) (s : State) : (drive o s).prPayload = s.prPayload := rfl
@[simp] theorem drive_lastSentT (o : Output) (s : State) : (drive o s).lastSentT = s.lastSentT := rfl
@[simp] theorem drive_ctr (o : Output) (s : State) : (drive o s).ctr = s.ctr := rfl
@[simp] theorem drive_snapValid (o : Output) (s : State) : (drive o s).snapValid = s.snapValid := rfl
@[simp] theorem drive_snap (o : Output) (s : State) : (drive o s).snap = s.snap := rfl
@[simp] theorem drive_idLow (o : Output) (s : State) : (drive o s).idLow = s.idLow := rfl
@[simp] theorem drive_outputs (o : Output) (s : State) : (drive o s).outputs = s.outputs ++ [o] := rfl
@[simp] theorem drive_inbox (o : Output) (s : State) : (drive o s).inbox = s.inbox := rfl

@[simp] theorem setPending_cfg (chan : Channel) (payload : List Byte) (s : State) :
    (setPending chan payload s).cfg = s.cfg := rfl
@[simp] theorem setPending_input (chan : Channel) (payload : List Byte) (s : State) :
    (setPending chan payload s).input = s.input := rfl
@[simp] theorem setPending_fdState (chan : Channel) (payload : List Byte) (s : State) :
    (setPending chan payload s).fdState = s.fdState := rfl
@[simp] theorem setPending_fdBuf (chan : Channel) (payload : List Byte) (s : State) :
    (setPending chan payload s).fdBuf = s.fdBuf := rfl
@[simp] theorem setPending_fdCnt (chan : Channel) (payload : List Byte) (s : State) :
    (setPending chan payload s).fdCnt = s.fdCnt := rfl
@[simp] theorem setPending_fdExp (chan : Channel) (payload : List Byte) (s : State) :
    (setPending chan payload s).fdExp = s.fdExp := rfl
@[simp] theorem setPending_fdLastT (chan : Channel) (payload : List Byte) (s : State) :
    (setPending chan payload s).fdLastT = s.fdLastT := rfl
@[simp] theorem setPending_playerId (chan : Channel) (payload : List Byte) (s : State) :
    (setPending chan payload s).playerId = s.playerId := rfl
@[simp] theorem setPending_inputMode (chan : Channel) (payload : List Byte) (s : State) :
    (setPending chan payload s).inputMode = s.inputMode := rfl
@[simp] theorem setPending_imuEn (chan : Channel) (payload : List Byte) (s : State) :
    (setPending chan payload s).imuEn = s.imuEn := rfl
@[simp] theorem setPending_vibEn (chan : Channel) (payload : List Byte) (s : State) :
    (setPending chan payload s).vibEn = s.vibEn := rfl
@[simp] theorem setPending_ready (chan : Channel) (payload : List Byte) (s : State) :
    (setPending chan payload s).ready = s.ready := rfl
@[simp] theorem setPending_initialized (chan : Channel) (payload : List Byte) (s : State) :
    (setPending chan payload s).initialized = s.initialized := rfl
@[simp] theorem setPending_lastHostT (chan : Channel) (payload : List Byte) (s : State) :
    (setPending chan payload s).lastHostT = s.lastHostT := rfl
@[simp] theorem setPending_prValid (chan : Channel) (payload : List Byte) (s : State) :
    (setPending chan payload s).prValid = true := rfl
@[simp] theorem setPending_prChan (chan : Channel) (payload : List Byte) (s : State) :
    (setPending chan payload s).prChan = chan := rfl
@[simp] theorem setPending_prPayload (chan : Channel) (payload : List Byte) (s : State) :
    (setPending chan payload s).prPayload = payload := rfl
@[simp] theorem setPending_lastSentT (chan : Channel) (payload : List Byte) (s : State) :
    (setPending chan payload s).lastSentT = s.lastSentT := rfl
@[simp] theorem setPending_ctr (chan : Channel) (payload : List Byte) (s : State) :
    (setPending chan payload s).ctr = s.ctr := rfl
@[simp] theorem setPending_snapValid (chan : Channel) (payload : List Byte) (s : State) :
    (setPending chan payload s).snapValid = s.snapValid := rfl
@[simp] theorem setPending_snap (chan : Channel) (payload : List Byte) (s : State) :
    (setPending chan payload s).snap = s.snap := rfl
@[simp] theorem setPending_idLow (chan : Channel) (payload : List Byte) (s : State) :
    (setPending chan payload s).idLow = s.idLow := rfl
@[simp] theorem setPending_outputs (chan : Channel) (payload : List Byte) (s : State) :
    (setPending chan payload s).outputs = s.outputs := rfl
@[simp] theorem setPending_inbox (chan : Channel) (payload : List Byte) (s : State) :
    (setPending chan payload s).inbox = s.inbox := rfl

@[simp] theorem touchHost_cfg (now : Time) (s : State) : (touchHost now s).cfg = s.cfg := rfl
@[simp] theorem touchHost_input (now : Time) (s : State) : (touchHost now s).input = s.input := rfl
@[simp] theorem touchHost_fdState (now : Time) (s : State) : (touchHost now s).fdState = s.fdState := rfl
@[simp] theorem touchHost_fdBuf (now : Time) (s : State) : (touchHost now s).fdBuf = s.fdBuf := rfl
@[simp] theorem touchHost_fdCnt (now : Time) (s : State) : (touchHost now s).fdCnt = s.fdCnt := rfl
@[simp] theorem touchHost_fdExp (now : Time) (s : State) : (touchHost now s).fdExp = s.fdExp := rfl
@[simp] theorem touchHost_fdLastT (now : Time) (s : State) : (touchHost now s).fdLastT = s.fdLastT := rfl
@[simp] theorem touchHost_playerId (now : Time) (s : State) : (touchHost now s).playerId = s.playerId := rfl
@[simp] theorem touchHost_inputMode (now : Time) (s : State) : (touchHost now s).inputMode = s.inputMode := rfl
@[simp] theorem touchHost_imuEn (now : Time) (s : State) : (touchHost now s).imuEn = s.imuEn := rfl
@[simp] theorem touchHost_vibEn (now : Time) (s : State) : (touchHost now s).vibEn = s.vibEn := rfl
@[simp] theorem touchHost_ready (now : Time) (s : State) : (touchHost now s).ready = s.ready := rfl
@[simp] theorem touchHost_initialized (now : Time) (s : State) : (touchHost now s).initialized = s.initialized := rfl
@[simp] theorem touchHost_lastHostT (now : Time) (s : State) : (touchHost now s).lastHostT = now := rfl
@[simp] theorem touchHost_prValid (now : Time) (s : State) : (touchHost now s).prValid = s.prValid := rfl
@[simp] theorem touchHost_prChan (now : Time) (s : State) : (touchHost now s).prChan = s.prChan := rfl
@[simp] theorem touchHost_prPayload (now : Time) (s : State) : (touchHost now s).prPayload = s.prPayload := rfl
@[simp] theorem touchHost_lastSentT (now : Time) (s : State) : (touchHost now s).lastSentT = s.lastSentT := rfl
@[simp] theorem touchHost_ctr (now : Time) (s : State) : (touchHost now s).ctr = s.ctr := rfl
@[simp] theorem touchHost_snapValid (now : Time) (s : State) : (touchHost now s).snapValid = s.snapValid := rfl
@[simp] theorem touchHost_snap (now : Time) (s : State) : (touchHost now s).snap = s.snap := rfl
@[simp] theorem touchHost_idLow (now : Time) (s : State) : (touchHost now s).idLow = s.idLow := rfl
@[simp] theorem touchHost_outputs (now : Time) (s : State) : (touchHost now s).outputs = s.outputs := rfl
@[simp] theorem touchHost_inbox (now : Time) (s : State) : (touchHost now s).inbox = s.inbox := rfl

@[simp] theorem queueReply_cfg (chan : Channel) (payload : List Byte) (now : Time) (s : State) :
    (queueReply chan payload now s).cfg = s.cfg := rfl
@[simp] theorem queueReply_input (chan : Channel) (payload : List Byte) (now : Time) (s : State) :
    (queueReply chan payload now s).input = s.input := rfl
@[simp] theorem queueReply_fdState (chan : Channel) (payload : List Byte) (now : Time) (s : State) :
    (queueReply chan payload now s).fdState = s.fdState := rfl
@[simp] theorem queueReply_fdBuf (chan : Channel) (payload : List Byte) (now : Time) (s : State) :
    (queueReply chan payload now s).fdBuf = s.fdBuf := rfl
@[simp] theorem queueReply_fdCnt (chan : Channel) (payload : List Byte) (now : Time) (s : State) :
    (queueReply chan payload now s).fdCnt = s.fdCnt := rfl
@[simp] theorem queueReply_fdExp (chan : Channel) (payload : List Byte) (now : Time) (s : State) :
    (queueReply chan payload now s).fdExp = s.fdExp := rfl
@[simp] theorem queueReply_fdLastT (chan : Channel) (payload : List Byte) (now : Time) (s : State) :
    (queueReply chan payload now s).fdLastT = s.fdLastT := rfl
@[simp] theorem queueReply_playerId (chan : Channel) (payload : List Byte) (now : Time) (s : State) :
    (queueReply chan payload now s).playerId = s.playerId := rfl
@[simp] theorem queueReply_inputMode (chan : Channel) (payload : List Byte) (now : Time) (s : State) :
    (queueReply chan payload now s).inputMode = s.inputMode := rfl
@[simp] theorem queueReply_imuEn (chan : Channel) (payload : List Byte) (now : Time) (s : State) :
    (queueReply chan payload now s).imuEn = s.imuEn := rfl
@[simp] theorem queueReply_vibEn (chan : Channel) (payload : List Byte) (now : Time) (s : State) :
    (queueReply chan payload now s).vibEn = s.vibEn := rfl
@[simp] theorem queueReply_ready (chan : Channel) (payload : List Byte) (now : Time) (s : State) :
    (queueReply chan payload now s).ready = s.ready := rfl
@[simp] theorem queueReply_initialized (chan : Channel) (payload : List Byte) (now : Time) (s : State) :
    (queueReply chan payload now s).initialized = s.initialized := rfl
@[simp] theorem queueReply_lastHostT (chan : Channel) (payload : List Byte) (now : Time) (s : State) :
    (queueReply chan payload now s).lastHostT = now := rfl
@[simp] theorem queueReply_prValid (chan : Channel) (payload : List Byte) (now : Time) (s : State) :
    (queueReply chan payload now s).prValid = true := rfl
@[simp] theorem queueReply_prChan (chan : Channel) (payload : List Byte) (now : Time) (s : State) :
    (queueReply chan payload now s).prChan = chan := rfl
@[simp] theorem queueReply_prPayload (chan : Channel) (payload : List Byte) (now : Time) (s : State) :
    (queueReply chan payload now s).prPayload = payload := rfl
@[simp] theorem queueReply_lastSentT (chan : Channel) (payload : List Byte) (now : Time) (s : State) :
    (queueReply chan payload now s).lastSentT = s.lastSentT := rfl
@[simp] theorem queueReply_ctr (chan : Channel) (payload : List Byte) (now : Time) (s : State) :
    (queueReply chan payload now s).ctr = s.ctr := rfl
@[simp] theorem queueReply_snapValid (chan : Channel) (payload : List Byte) (now : Time) (s : State) :
    (queueReply chan payload now s).snapValid = s.snapValid := rfl
@[simp] theorem queueReply_snap (chan : Channel) (payload : List Byte) (now : Time) (s : State) :
    (queueReply chan payload now s).snap = s.snap := rfl
@[simp] theorem queueReply_idLow (chan : Channel) (payload : List Byte) (now : Time) (s : State) :
    (queueReply chan payload now s).idLow = s.idLow := rfl
@[simp] theorem queueReply_outputs (chan : Channel) (payload : List Byte) (now : Time) (s : State) :
    (queueReply chan payload now s).outputs = s.outputs := rfl
@[simp] theorem queueReply_inbox (chan : Channel) (payload : List Byte) (now : Time) (s : State) :
    (queueReply chan payload now s).inbox = s.inbox := rfl

@[simp] theorem sessionDefaults_cfg (s : State) : (sessionDefaults s).cfg = s.cfg := rfl
@[simp] theorem sessionDefaults_input (s : State) : (sessionDefaults s).input = s.input := rfl
@[simp] theorem sessionDefaults_fdState (s : State) : (sessionDefaults s).fdState = s.fdState := rfl
@[simp] theorem sessionDefaults_fdBuf (s : State) : (sessionDefaults s).fdBuf = s.fdBuf := rfl
@[simp] theorem sessionDefaults_fdCnt (s : State) : (sessionDefaults s).fdCnt = s.fdCnt := rfl
@[simp] theorem sessionDefaults_fdExp (s : State) : (sessionDefaults s).fdExp = s.fdExp := rfl
@[simp] theorem sessionDefaults_fdLastT (s : State) : (sessionDefaults s).fdLastT = s.fdLastT := rfl
@[simp] theorem sessionDefaults_playerId (s : State) : (sessionDefaults s).playerId = 0x00 := rfl
@[simp] theorem sessionDefaults_inputMode (s : State) : (sessionDefaults s).inputMode = 0x00 := rfl
@[simp] theorem sessionDefaults_imuEn (s : State) : (sessionDefaults s).imuEn = false := rfl
@[simp] theorem sessionDefaults_vibEn (s : State) : (sessionDefaults s).vibEn = false := rfl
@[simp] theorem sessionDefaults_ready (s : State) : (sessionDefaults s).ready = false := rfl
@[simp] theorem sessionDefaults_initialized (s : State) : (sessionDefaults s).initialized = false := rfl
@[simp] theorem sessionDefaults_lastHostT (s : State) : (sessionDefaults s).lastHostT = 0 := rfl
@[simp] theorem sessionDefaults_prValid (s : State) : (sessionDefaults s).prValid = s.prValid := rfl
@[simp] theorem sessionDefaults_prChan (s : State) : (sessionDefaults s).prChan = s.prChan := rfl
@[simp] theorem sessionDefaults_prPayload (s : State) : (sessionDefaults s).prPayload = s.prPayload := rfl
@[simp] theorem sessionDefaults_lastSentT (s : State) : (sessionDefaults s).lastSentT = s.lastSentT := rfl
@[simp] theorem sessionDefaults_ctr (s : State) : (sessionDefaults s).ctr = s.ctr := rfl
@[simp] theorem sessionDefaults_snapValid (s : State) : (sessionDefaults s).snapValid = s.snapValid := rfl
@[simp] theorem sessionDefaults_snap (s : State) : (sessionDefaults s).snap = s.snap := rfl
@[simp] theorem sessionDefaults_idLow (s : State) : (sessionDefaults s).idLow = s.idLow := rfl
@[simp] theorem sessionDefaults_outputs (s : State) : (sessionDefaults s).outputs = s.outputs := rfl
@[simp] theorem sessionDefaults_inbox (s : State) : (sessionDefaults s).inbox = s.inbox := rfl

@[simp] theorem resetDecoder_cfg (s : State) : (resetDecoder s).cfg = s.cfg := rfl
@[simp] theorem resetDecoder_input (s : State) : (resetDecoder s).input = s.input := rfl
@[simp] theorem resetDecoder_fdState (s : State) : (resetDecoder s).fdState = .idle := rfl
@[simp] theorem resetDecoder_fdBuf (s : State) : (resetDecoder s).fdBuf = [] := rfl
@[simp] theorem resetDecoder_fdCnt (s : State) : (resetDecoder s).fdCnt = 0 := rfl
@[simp] theorem resetDecoder_fdExp (s : State) : (resetDecoder s).fdExp = none := rfl
@[simp] theorem resetDecoder_fdLastT (s : State) : (resetDecoder s).fdLastT = s.fdLastT := rfl
@[simp] theorem resetDecoder_playerId (s : State) : (resetDecoder s).playerId = s.playerId := rfl
@[simp] theorem resetDecoder_inputMode (s : State) : (resetDecoder s).inputMode = s.inputMode := rfl
@[simp] theorem resetDecoder_imuEn (s : State) : (resetDecoder s).imuEn = s.imuEn := rfl
@[simp] theorem resetDecoder_vibEn (s : State) : (resetDecoder s).vibEn = s.vibEn := rfl
@[simp] theorem resetDecoder_ready (s : State) : (resetDecoder s).ready = s.ready := rfl
@[simp] theorem resetDecoder_initialized (s : State) : (resetDecoder s).initialized = s.initialized := rfl
@[simp] theorem resetDecoder_lastHostT (s : State) : (resetDecoder s).lastHostT = s.lastHostT := rfl
@[simp] theorem resetDecoder_prValid (s : State) : (resetDecoder s).prValid = s.prValid := rfl
@[simp] theorem resetDecoder_prChan (s : State) : (resetDecoder s).prChan = s.prChan := rfl
@[simp] theorem resetDecoder_prPayload (s : State) : (resetDecoder s).prPayload = s.prPayload := rfl
@[simp] theorem resetDecoder_lastSentT (s : State) : (resetDecoder s).lastSentT = s.lastSentT := rfl
@[simp] theorem resetDecoder_ctr (s : State) : (resetDecoder s).ctr = s.ctr := rfl
@[simp] theorem resetDecoder_snapValid (s : State) : (resetDecoder s).snapValid = s.snapValid := rfl
@[simp] theorem resetDecoder_snap (s : State) : (resetDecoder s).snap = s.snap := rfl
@[simp] theorem resetDecoder_idLow (s : State) : (resetDecoder s).idLow = s.idLow := rfl
@[simp] theorem resetDecoder_outputs (s : State) : (resetDecoder s).outputs = s.outputs := rfl
@[simp] theorem resetDecoder_inbox (s : State) : (resetDecoder s).inbox = s.inbox := rfl

@[simp] theorem sendReport_cfg (report : List Byte) (now : Time) (s : State) :
    (sendReport report now s).cfg = s.cfg := rfl
@[simp] theorem sendReport_input (report : List Byte) (now : Time) (s : State) :
    (sendReport report now s).input = s.input := rfl
@[simp] theorem sendReport_fdState (report : List Byte) (now : Time) (s : State) :
    (sendReport report now s).fdState = s.fdState := rfl
@[simp] theorem sendReport_fdBuf (report : List Byte) (now : Time) (s : State) :
    (sendReport report now s).fdBuf = s.fdBuf := rfl
@[simp] theorem sendReport_fdCnt (report : List Byte) (now : Time) (s : State) :
    (sendReport report now s).fdCnt = s.fdCnt := rfl
@[simp] theorem sendReport_fdExp (report : List Byte) (now : Time) (s : State) :
    (sendReport report now s).fdExp = s.fdExp := rfl
@[simp] theorem sendReport_fdLastT (report : List Byte) (now : Time) (s : State) :
    (sendReport report now s).fdLastT = s.fdLastT := rfl
@[simp] theorem sendReport_playerId (report : List Byte) (now : Time) (s : State) :
    (sendReport report now s).playerId = s.playerId := rfl
@[simp] theorem sendReport_inputMode (report : List Byte) (now : Time) (s : State) :
    (sendReport report now s).inputMode = s.inputMode := rfl
@[simp] theorem sendReport_imuEn (report : List Byte) (now : Time) (s : State) :
    (sendReport report now s).imuEn = s.imuEn := rfl
@[simp] theorem sendReport_vibEn (report : List Byte) (now : Time) (s : State) :
    (sendReport report now s).vibEn = s.vibEn := rfl
@[simp] theorem sendReport_ready (report : List Byte) (now : Time) (s : State) :
    (sendReport report now s).ready = s.ready := rfl
@[simp] theorem sendReport_initialized (report : List Byte) (now : Time) (s : State) :
    (sendReport report now s).initialized = s.initialized := rfl
@[simp] theorem sendReport_lastHostT (report : List Byte) (now : Time) (s : State) :
    (sendReport report now s).lastHostT = s.lastHostT := rfl
@[simp] theorem sendReport_prValid (report : List Byte) (now : Time) (s : State) :
    (sendReport report now s).prValid = s.prValid := rfl
@[simp] theorem sendReport_prChan (report : List Byte) (now : Time) (s : State) :
    (sendReport report now s).prChan = s.prChan := rfl
@[simp] theorem sendReport_prPayload (report : List Byte) (now : Time) (s : State) :
    (sendReport report now s).prPayload = s.prPayload := rfl
@[simp] theorem sendReport_lastSentT (report : List Byte) (now : Time) (s : State) :
    (sendReport report now s).lastSentT = now := rfl
@[simp] theorem sendReport_ctr (report : List Byte) (now : Time) (s : State) :
    (sendReport report now s).ctr = s.ctr + 1 := rfl
@[simp] theorem sendReport_snapValid (report : List Byte) (now : Time) (s : State) :
    (sendReport report now s).snapValid = s.snapValid := rfl
@[simp] theorem sendReport_snap (report : List Byte) (now : Time) (s : State) :
    (sendReport report now s).snap = s.snap := rfl
@[simp] theorem sendReport_idLow (report : List Byte) (now : Time) (s : State) :
    (sendReport report now s).idLow = s.idLow := rfl
@[simp] theorem sendReport_outputs (report : List Byte) (now : Time) (s : State) :
    (sendReport report now s).outputs = s.outputs ++ [.usbTx report] := rfl
@[simp] theorem sendReport_inbox (report : List Byte) (now : Time) (s : State) :
    (sendReport report now s).inbox = s.inbox := rfl

end Sys2Proof.Machine
end

