-- ==== Sys2Proof/Laws/Commands.lean ====
section
/-! SUPPORT. Which command a word asks for, and all a command can do. -/

namespace Sys2Proof.Machine

theorem hostCommand_cfg {p : Params} {c : List Byte} (h : cbyte p c 0 = p.chConfig) :
    hostCommand p c = configCommand p (cbyte p c p.cfgSelOff) := by
  rw [hostCommand, if_pos h]

theorem hostCommand_feat {p : Params} (hp : p.Constraints) {c : List Byte} (h : cbyte p c 0 = p.chFeature) :
    hostCommand p c = featureCommand p c := by
  rw [hostCommand, if_neg (fun e => hp.channels (e.symm.trans h)), if_pos h]

theorem hostCommand_ignored {p : Params} {c : List Byte} (h : cbyte p c 0 ≠ p.chConfig)
    (h' : cbyte p c 0 ≠ p.chFeature) : hostCommand p c = .ignored (cbyte p c 0) := by
  rw [hostCommand, if_neg h, if_neg h']

/-- The CmdIn of a word is its row. -/
theorem execEvCmdIn_eq (c : List Byte) (now : Time) (s : State) :
    execEvCmdIn c now s = exec ((hostCommand s.cfg c).toInstr now) s := by
  rw [execEvCmdIn]
  cases hostCommand s.cfg c <;> rfl

/-- The rows of the feature channel. -/
theorem featureCommand_isCommand (p : Params) (c : List Byte) (now : Time) :
    Instr.isCommand ((featureCommand p c).toInstr now) = true := by
  rw [featureCommand]
  cases selectFeat p (cbyte p c p.featSelOff) with
  | none => rfl
  | some cmd => cases cmd <;> rfl

/-- The row, or the CmdIn of a word, of disable-host-timeout. -/
def isDisableTimeout (i : Instr) (s : State) : Prop :=
  (∃ now, i = .cfgDisableTimeout now) ∨ ∃ c now, i = .evCmdIn c now ∧ hostCommand s.cfg c = .disableTimeout

/-- All a command can do: nothing (the ignored word), or session writes and a reply that fits. -/
theorem exec_command (i : Instr) (s : State) (h : Instr.isCommand i = true) :
    exec i s = .next s
    ∨ ∃ chan payload now player mode imu vib rdy,
        exec i s = .next (queueReply chan payload now
          { s with playerId := player, inputMode := mode, imuEn := imu, vibEn := vib, ready := rdy })
        ∧ payload.length ≤ payloadBound s.cfg chan ∧ (rdy = s.ready ∨ rdy = true ∧ isDisableTimeout i s) := by
  cases i <;> simp only [Instr.isCommand, Bool.false_eq_true] at h
  case cmdIgnored => exact .inl rfl
  case evCmdIn c now =>
    rw [show exec (.evCmdIn c now) s = execEvCmdIn c now s from rfl, execEvCmdIn]
    cases hc : hostCommand s.cfg c
    case ignored => exact .inl rfl
    all_goals
      refine .inr ⟨_, _, _, _, _, _, _, _, rfl, ?_, ?_⟩
      · simp only [payloadBound, genAck, identPayload, devId, addrBytes, vfRead_length, List.length_append,
          List.length_cons, List.length_nil]
        omega
      · first | exact .inl rfl | exact .inr ⟨rfl, .inr ⟨_, _, rfl, hc⟩⟩
  all_goals
    refine .inr ⟨_, _, _, _, _, _, _, _, rfl, ?_, ?_⟩
    · simp only [payloadBound, genAck, identPayload, devId, addrBytes, vfRead_length, List.length_append,
        List.length_cons, List.length_nil]
      omega
    · first | exact .inl rfl | exact .inr ⟨rfl, .inl ⟨_, rfl⟩⟩

end Sys2Proof.Machine
end

