-- ==== Sys2Proof/Laws/FrameDecoder.lean ====
section
/-! SUPPORT. What one ByteIn can do, case by case, so that no proof unfolds the decoder; and byte sequences. -/

namespace Sys2Proof.Machine

/-- A frame begins with this byte. -/
def beginFrame (b : Byte) (now : Time) (evt : FdEvt) (s : State) : State :=
  { s with fdState := .syncing, fdBuf := [b], fdCnt := 1
           fdExp := if s.cfg.frameFmt = .legacy8 then some legacyLen else none
           fdLastT := now, outputs := s.outputs ++ [.fdEvt evt] }

/-- The partial frame is dropped. -/
def dropFrame (now : Time) (evt : FdEvt) (s : State) : State :=
  { s with fdState := .idle, fdBuf := [], fdCnt := 0, fdExp := none
           fdLastT := now, outputs := s.outputs ++ [.fdEvt evt] }

/-- The byte is discarded in IDLE. -/
def discardByte (now : Time) (s : State) : State :=
  { s with fdLastT := now, outputs := s.outputs ++ [.fdEvt .discard] }

/-- The byte is appended; `fd_exp` is `exp` from then on. -/
def appendByte (b : Byte) (now : Time) (exp : Option Nat) (s : State) : State :=
  { s with fdBuf := s.fdBuf ++ [b], fdCnt := s.fdCnt + 1, fdExp := exp
           fdLastT := now, outputs := s.outputs ++ [.fdEvt .none] }

/-- The byte completes the frame. -/
def finishFrame (b : Byte) (now : Time) (s : State) : State :=
  { s with input := decodeFields s.cfg (fieldBlock s.cfg (s.fdBuf ++ [b]))
           fdState := .idle, fdBuf := [], fdCnt := 0, fdExp := none
           fdLastT := now, outputs := s.outputs ++ [.fdEvt .frame] }

/-- The byte taken in SYNCING is the length byte of a length-prefixed frame. -/
def atLength (s : State) : Prop := s.cfg.frameFmt = .lenPfx ∧ s.fdCnt = 2

theorem gapTimedOut_of_late {s : State} {now : Time} (h : s.fdState = .syncing)
    (hgap : s.cfg.fdTimeoutMs < (now - s.fdLastT).toNat) : gapTimedOut s now = true := by
  rw [gapTimedOut, elapsed, h, decide_eq_true hgap]
  rfl

theorem gapTimedOut_of_inTime {s : State} {now : Time}
    (hgap : (now - s.fdLastT).toNat ≤ s.cfg.fdTimeoutMs) : gapTimedOut s now = false := by
  rw [gapTimedOut, elapsed, decide_eq_false (Nat.not_lt.2 hgap), Bool.and_false]

/-- Within the deadline a SYNCING decoder accumulates. -/
theorem byteIn_syncing {s : State} {now : Time} (h : s.fdState = .syncing)
    (hgap : (now - s.fdLastT).toNat ≤ s.cfg.fdTimeoutMs) (b : Byte) :
    byteIn b now s = accumulate b { s with fdLastT := now } := by
  rw [byteIn, if_neg (by simp [gapTimedOut_of_inTime hgap])]
  split
  · rename_i hi
    rw [h] at hi
    cases hi
  · rfl

theorem byteIn_idle {s : State} (h : s.fdState = .idle) (b : Byte) (now : Time) :
    byteIn b now s = if b = s.cfg.sentinel then beginFrame b now .none s else discardByte now s := by
  have hg : gapTimedOut s now = false := by simp [gapTimedOut, h]
  rw [byteIn, if_neg (by simp [hg])]
  split
  · rw [scanIdle]
    split <;> rfl
  · rename_i hi
    rw [h] at hi
    cases hi

theorem byteIn_late {s : State} (h : s.fdState = .syncing) {now : Time}
    (hgap : s.cfg.fdTimeoutMs < (now - s.fdLastT).toNat) (b : Byte) :
    byteIn b now s
      = if b = s.cfg.sentinel then beginFrame b now .dropTimeout s else dropFrame now .dropTimeout s := by
  rw [byteIn, if_pos (gapTimedOut_of_late h hgap), scanIdle]
  show (if b = s.cfg.sentinel then _ else _) = _
  split <;> rfl

theorem byteIn_length {s : State} (h : s.fdState = .syncing) {now : Time}
    (hgap : (now - s.fdLastT).toNat ≤ s.cfg.fdTimeoutMs) (hl : atLength s) (b : Byte) :
    byteIn b now s =
      if lengthAccepted s.cfg (b.toNat + 4) then appendByte b now (some (b.toNat + 4)) s
      else dropFrame now .dropLen s := by
  obtain ⟨hf, hc⟩ := hl
  have h3 : ¬ some (b.toNat + 4) = some (s.fdCnt + 1) := by
    rw [hc, Option.some.injEq]
    omega
  rw [byteIn_syncing h hgap, accumulate]
  simp only [hf, hc, lenpfxOverhead, and_self, if_true]
  split
  · rw [completeFrame, if_neg (by simp)]
    simp [appendByte, drive, hc]
  · rfl

theorem byteIn_body {s : State} (h : s.fdState = .syncing) {now : Time}
    (hgap : (now - s.fdLastT).toNat ≤ s.cfg.fdTimeoutMs) (hl : ¬ atLength s) (b : Byte) :
    byteIn b now s =
      if s.fdExp = some (s.fdCnt + 1) then finishFrame b now s else appendByte b now s.fdExp s := by
  have hn : ¬ (s.cfg.frameFmt = .lenPfx ∧ s.fdCnt + 1 = 3) := fun ⟨hf, hc⟩ => hl ⟨hf, by omega⟩
  rw [byteIn_syncing h hgap, accumulate]
  simp only [hn, if_false, completeFrame]
  split <;> rfl

/-- All a ByteIn can do. -/
theorem byteIn_cases (b : Byte) (now : Time) (s : State) :
    (∃ evt, evt ≠ .frame ∧ b = s.cfg.sentinel ∧ byteIn b now s = beginFrame b now evt s)
    ∨ (s.fdState = .idle ∧ byteIn b now s = discardByte now s)
    ∨ (∃ evt, evt ≠ .frame ∧ byteIn b now s = dropFrame now evt s)
    ∨ (s.fdState = .syncing ∧ atLength s ∧ lengthAccepted s.cfg (b.toNat + 4) = true
        ∧ byteIn b now s = appendByte b now (some (b.toNat + 4)) s)
    ∨ (s.fdState = .syncing ∧ ¬ atLength s ∧ s.fdExp ≠ some (s.fdCnt + 1)
        ∧ byteIn b now s = appendByte b now s.fdExp s)
    ∨ (s.fdState = .syncing ∧ ¬ atLength s ∧ s.fdExp = some (s.fdCnt + 1) ∧ byteIn b now s = finishFrame b now s) := by
  cases hst : s.fdState with
  | idle =>
    rw [byteIn_idle hst]
    split
    · exact .inl ⟨.none, by decide, by assumption, rfl⟩
    · exact .inr (.inl ⟨rfl, rfl⟩)
  | syncing =>
    by_cases hgap : (now - s.fdLastT).toNat ≤ s.cfg.fdTimeoutMs
    · by_cases hl : atLength s
      · rw [byteIn_length hst hgap hl]
        split
        · exact .inr (.inr (.inr (.inl ⟨rfl, hl, by assumption, rfl⟩)))
        · exact .inr (.inr (.inl ⟨.dropLen, by decide, rfl⟩))
      · rw [byteIn_body hst hgap hl]
        split
        · exact .inr (.inr (.inr (.inr (.inr ⟨rfl, hl, by assumption, rfl⟩))))
        · exact .inr (.inr (.inr (.inr (.inl ⟨rfl, hl, by assumption, rfl⟩))))
    · rw [byteIn_late hst (by omega)]
      split
      · exact .inl ⟨.dropTimeout, by decide, by assumption, rfl⟩
      · exact .inr (.inr (.inl ⟨.dropTimeout, by decide, rfl⟩))

@[simp] theorem bytesIn_nil (now : Time) (s : State) : bytesIn [] now s = s := rfl

@[simp] theorem bytesIn_cons (b : Byte) (bs : List Byte) (now : Time) (s : State) :
    bytesIn (b :: bs) now s = bytesIn bs now (byteIn b now s) := rfl

theorem bytesIn_append (bs cs : List Byte) (now : Time) (s : State) :
    bytesIn (bs ++ cs) now s = bytesIn cs now (bytesIn bs now s) := by
  simp [bytesIn]

/-- A property every ByteIn keeps holds after a byte sequence. -/
theorem bytesIn_induct {P : State → Prop} (now : Time) (hstep : ∀ b s, P s → P (byteIn b now s)) (bs : List Byte)
    {s : State} (h : P s) : P (bytesIn bs now s) := by
  induction bs generalizing s with
  | nil => exact h
  | cons b bs ih => exact ih (hstep b s h)

/-- Bytes appended strictly inside a frame of known length, at the time of the last byte. -/
def appendBytes (bs : List Byte) (s : State) : State :=
  { s with fdBuf := s.fdBuf ++ bs, fdCnt := s.fdCnt + bs.length
           outputs := s.outputs ++ List.replicate bs.length (.fdEvt .none) }

theorem inTime_of_now {s : State} {now : Time} (h : s.fdLastT = now) :
    (now - s.fdLastT).toNat ≤ s.cfg.fdTimeoutMs := by
  rw [h]
  simp

/-- A body byte at the time of the last byte. -/
theorem byteIn_now {s : State} {now : Time} (hs : s.fdState = .syncing) (ht : s.fdLastT = now) (hl : ¬ atLength s)
    (b : Byte) : byteIn b now s =
      if s.fdExp = some (s.fdCnt + 1) then finishFrame b now s else appendByte b now s.fdExp s :=
  byteIn_body hs (inTime_of_now ht) hl b

/-- Bytes that do not reach the end of a frame of known length are appended. -/
theorem bytesIn_inside (bs : List Byte) (now : Time) (e : Nat) (s : State) (hs : s.fdState = .syncing)
    (ht : s.fdLastT = now) (he : s.fdExp = some e) (hl : s.cfg.frameFmt = .legacy8 ∨ 3 ≤ s.fdCnt)
    (hb : s.fdCnt + bs.length < e) : bytesIn bs now s = appendBytes bs s := by
  induction bs generalizing s with
  | nil => simp [appendBytes]
  | cons b bs ih =>
    rw [List.length_cons] at hb
    have hn : ¬ atLength s := by
      rintro ⟨hf, hc⟩
      rcases hl with hl | hl
      · rw [hf] at hl
        cases hl
      · omega
    have hne : s.fdExp ≠ some (s.fdCnt + 1) := by
      rw [he, ne_eq, Option.some.injEq]
      omega
    rw [bytesIn_cons, byteIn_now hs ht hn, if_neg hne]
    have hl' : s.cfg.frameFmt = .legacy8 ∨ 3 ≤ s.fdCnt + 1 := hl.imp_right (by omega)
    rw [ih (appendByte b now s.fdExp s) hs rfl he hl' (by simp only [appendByte]; omega)]
    simp [appendByte, appendBytes, List.replicate_succ, ht]
    omega

end Sys2Proof.Machine
end

