-- ==== Sys2Proof/Laws/Scheduler.lean ====
section
/-! SUPPORT. What one Tick can do, case by case, so that no proof unfolds the scheduler. -/

namespace Sys2Proof.Machine

/-- A Tick that sends a report: `wake_req`, the report, the stamp and the counter. -/
def tickSend (report : List Byte) (now : Time) (suspended : Bool) (s : State) : State :=
  { s with lastSentT := now, ctr := s.ctr + 1
           outputs := s.outputs ++ [.wakeReq suspended, .usbTx report] }

theorem due_drive {s : State} {now : Time} (h : s.cfg.sendIntervalMs ≤ (now - s.lastSentT).toNat) (o : Output) :
    due (drive o s) now = true :=
  decide_eq_true h

/-- A due Tick with a reply pending. -/
theorem tick_reply {s : State} {now : Time} (hdue : s.cfg.sendIntervalMs ≤ (now - s.lastSentT).toNat)
    (hpr : s.prValid = true) (txReady suspended : Bool) :
    tick now txReady suspended s =
      if txReady then { tickSend (frameReply s s.prChan s.prPayload) now suspended s with prValid := false }
      else drive (.wakeReq suspended) s := by
  have hd : due (drive (.wakeReq suspended) s) now = true := due_drive hdue _
  have hf : frameReply (drive (.wakeReq suspended) s) s.prChan s.prPayload = frameReply s s.prChan s.prPayload := by
    cases s.prChan <;> rfl
  simp only [tick, hd, drive_prValid, hpr, if_true, tickReply, drive_prChan, drive_prPayload, hf]
  cases txReady
  · rfl
  · simp [sendReport, drive, tickSend]

/-- A due Tick of the periodic sender. -/
theorem tick_periodic {s : State} {now : Time} (hdue : s.cfg.sendIntervalMs ≤ (now - s.lastSentT).toNat)
    (hpr : s.prValid = false) (hr : s.ready = true) (txReady suspended : Bool) :
    tick now txReady suspended s =
      if s.snapValid && same s.cfg.reportLen (buildInput s.cfg s.input s.ctr) s.snap then
        drive (.wakeReq suspended) s
      else if txReady then
        { tickSend (buildInput s.cfg s.input s.ctr) now suspended s with
          snap := buildInput s.cfg s.input s.ctr, snapValid := true }
      else drive (.wakeReq suspended) s := by
  have hd : due (drive (.wakeReq suspended) s) now = true := due_drive hdue _
  have ht : tick now txReady suspended s = tickPeriodic now txReady (drive (.wakeReq suspended) s) := by
    simp only [tick, hd, drive_prValid, hpr, drive_ready, hr, if_true, Bool.false_eq_true, if_false]
  rw [ht, tickPeriodic]
  show (if s.snapValid && same s.cfg.reportLen (buildInput s.cfg s.input s.ctr) s.snap then _ else _) = _
  split
  · rfl
  · cases txReady
    · rfl
    · simp [sendReport, drive, tickSend]

/-- A due Tick of the one-shot identification. -/
theorem tick_identify {s : State} {now : Time} (hdue : s.cfg.sendIntervalMs ≤ (now - s.lastSentT).toNat)
    (hpr : s.prValid = false) (hr : s.ready = false) (hi : s.initialized = false) (txReady suspended : Bool) :
    tick now txReady suspended s =
      if txReady then
        { tickSend (frameReply s .cfg (identPayload s.cfg s.idLow)) now suspended s with initialized := true }
      else drive (.wakeReq suspended) s := by
  have hd : due (drive (.wakeReq suspended) s) now = true := due_drive hdue _
  simp only [tick, hd, drive_prValid, hpr, drive_ready, hr, drive_initialized, hi, if_true, tickIdentify,
    Bool.false_eq_true, if_false]
  cases txReady
  · rfl
  · simp [sendReport, drive, tickSend, frameReply]

/-- A Tick that is not due. -/
theorem tick_early {s : State} {now : Time} (h : (now - s.lastSentT).toNat < s.cfg.sendIntervalMs)
    (txReady suspended : Bool) : tick now txReady suspended s = drive (.wakeReq suspended) s := by
  have hd : due (drive (.wakeReq suspended) s) now = false := decide_eq_false (Nat.not_le.2 h)
  simp only [tick, hd, Bool.false_eq_true, if_false]

/-- A Tick with nothing to send. -/
theorem tick_quiet {s : State} (hpr : s.prValid = false) (hr : s.ready = false) (hi : s.initialized = true)
    (now : Time) (txReady suspended : Bool) : tick now txReady suspended s = drive (.wakeReq suspended) s := by
  simp only [tick, drive_prValid, hpr, drive_ready, hr, drive_initialized, hi, if_true, Bool.false_eq_true, if_false,
    ite_self]

/-- All a Tick can do: it drives `wake_req` alone, or sends one report of one of the three kinds. -/
theorem tick_cases (now : Time) (txReady suspended : Bool) (s : State) :
    tick now txReady suspended s = drive (.wakeReq suspended) s
    ∨ txReady = true ∧ s.cfg.sendIntervalMs ≤ (now - s.lastSentT).toNat ∧
      (s.prValid = true ∧ tick now txReady suspended s
          = { tickSend (frameReply s s.prChan s.prPayload) now suspended s with prValid := false }
      ∨ s.prValid = false ∧ s.ready = true ∧ tick now txReady suspended s
          = { tickSend (buildInput s.cfg s.input s.ctr) now suspended s with
              snap := buildInput s.cfg s.input s.ctr, snapValid := true }
      ∨ s.prValid = false ∧ s.ready = false ∧ s.initialized = false ∧ tick now txReady suspended s
          = { tickSend (frameReply s .cfg (identPayload s.cfg s.idLow)) now suspended s with initialized := true }) := by
  by_cases hdue : s.cfg.sendIntervalMs ≤ (now - s.lastSentT).toNat
  · cases hpr : s.prValid with
    | true =>
      have h := tick_reply hdue hpr txReady suspended
      cases txReady
      · exact .inl h
      · exact .inr ⟨rfl, hdue, .inl ⟨rfl, h⟩⟩
    | false =>
      cases hr : s.ready with
      | true =>
        have h := tick_periodic hdue hpr hr txReady suspended
        split at h
        · exact .inl h
        · cases txReady
          · exact .inl h
          · exact .inr ⟨rfl, hdue, .inr (.inl ⟨rfl, rfl, h⟩)⟩
      | false =>
        cases hi : s.initialized with
        | true => exact .inl (tick_quiet hpr hr hi now txReady suspended)
        | false =>
          have h := tick_identify hdue hpr hr hi txReady suspended
          cases txReady
          · exact .inl h
          · exact .inr ⟨rfl, hdue, .inr (.inr ⟨rfl, rfl, rfl, h⟩)⟩
  · exact .inl (tick_early (by omega) txReady suspended)

end Sys2Proof.Machine
end

