-- ==== Sys2Proof/Laws/Exec.lean ====
section
/-! SUPPORT. The dispatch in the shapes a proof needs: the frame rows and CmdIn as the operations they run, runs of
ByteIn events, and what no ByteIn touches. -/

namespace Sys2Proof.Machine

theorem exec_frameLegacy8 (fb : FieldBlock) (now : Time) (s : State) :
    exec (.frameLegacy8 fb now) s = .next (bytesIn (legacyFrame s.cfg fb) now s) := rfl

theorem exec_frameLenpfx (version : Byte) (fb : FieldBlock) (extra : List Byte) (trailer : Byte) (now : Time)
    (s : State) : exec (.frameLenpfx version fb extra trailer now) s
      = .next (bytesIn (lenpfxFrame s.cfg version fb extra trailer) now s) := rfl

theorem exec_evByteIn (b : Byte) (now : Time) (s : State) : exec (.evByteIn b now) s = .next (byteIn b now s) := rfl

theorem exec_evTick (now : Time) (txReady suspended : Bool) (s : State) :
    exec (.evTick now txReady suspended) s = .next (tick now txReady suspended s) := rfl

theorem exec_evCmdIn (c : List Byte) (now : Time) (s : State) :
    exec (.evCmdIn c now) s = exec ((hostCommand s.cfg c).toInstr now) s :=
  execEvCmdIn_eq c now s

/-- A run of ByteIn events is the byte sequence. -/
theorem execAll_byteEvents (bs : List Byte) (now : Time) (s : State) :
    execAll (byteEvents bs now) s = .next (bytesIn bs now s) := by
  induction bs generalizing s with
  | nil => rfl
  | cons b bs ih => exact ih (byteIn b now s)

theorem reportsOf_append (a b : List Output) : reportsOf (a ++ b) = reportsOf a ++ reportsOf b := by
  simp [reportsOf]

/-- What no ByteIn touches: all but the decoder registers, InputState and `fd_evt`. -/
structure SameBeyondDecoder (s t : State) : Prop where
  cfg : t.cfg = s.cfg
  playerId : t.playerId = s.playerId
  inputMode : t.inputMode = s.inputMode
  imuEn : t.imuEn = s.imuEn
  vibEn : t.vibEn = s.vibEn
  ready : t.ready = s.ready
  initialized : t.initialized = s.initialized
  lastHostT : t.lastHostT = s.lastHostT
  prValid : t.prValid = s.prValid
  prChan : t.prChan = s.prChan
  prPayload : t.prPayload = s.prPayload
  lastSentT : t.lastSentT = s.lastSentT
  ctr : t.ctr = s.ctr
  snapValid : t.snapValid = s.snapValid
  snap : t.snap = s.snap
  idLow : t.idLow = s.idLow
  inbox : t.inbox = s.inbox
  reports : reportsOf t.outputs = reportsOf s.outputs

theorem byteIn_same (b : Byte) (now : Time) (s : State) : SameBeyondDecoder s (byteIn b now s) := by
  rcases byteIn_cases b now s with
    ⟨e, -, -, h⟩ | ⟨-, h⟩ | ⟨e, -, h⟩ | ⟨-, -, -, h⟩ | ⟨-, -, -, h⟩ | ⟨-, -, -, h⟩ <;> rw [h] <;>
  exact ⟨rfl, rfl, rfl, rfl, rfl, rfl, rfl, rfl, rfl, rfl, rfl, rfl, rfl, rfl, rfl, rfl, rfl, by
    simp [beginFrame, discardByte, dropFrame, appendByte, finishFrame, reportsOf]⟩

theorem SameBeyondDecoder.trans {s t u : State} (h : SameBeyondDecoder s t) (g : SameBeyondDecoder t u) :
    SameBeyondDecoder s u :=
  ⟨g.cfg.trans h.cfg, g.playerId.trans h.playerId, g.inputMode.trans h.inputMode, g.imuEn.trans h.imuEn,
    g.vibEn.trans h.vibEn, g.ready.trans h.ready, g.initialized.trans h.initialized, g.lastHostT.trans h.lastHostT,
    g.prValid.trans h.prValid, g.prChan.trans h.prChan, g.prPayload.trans h.prPayload,
    g.lastSentT.trans h.lastSentT, g.ctr.trans h.ctr, g.snapValid.trans h.snapValid, g.snap.trans h.snap,
    g.idLow.trans h.idLow, g.inbox.trans h.inbox, g.reports.trans h.reports⟩

theorem bytesIn_same (bs : List Byte) (now : Time) (s : State) : SameBeyondDecoder s (bytesIn bs now s) :=
  bytesIn_induct (P := SameBeyondDecoder s) now (fun b t h => h.trans (byteIn_same b now t)) bs
    ⟨rfl, rfl, rfl, rfl, rfl, rfl, rfl, rfl, rfl, rfl, rfl, rfl, rfl, rfl, rfl, rfl, rfl, rfl⟩

end Sys2Proof.Machine
end

