-- ==== Sys2Proof/Laws/PerInstr.lean ====
section
/-! SUPPORT. The one statement per instruction: the word `encode` gives stands on the port the row's format names, with
its time, its length and, for a command, its channel id (30_encoding.md R67, R68, R69, R76, R77, R91). -/

namespace Sys2Proof.Laws.EncodingPort

open Sys2Proof.Machine

/-- A command word of a channel: offered at `now`, no longer than `CMD_LEN_MAX`, its channel id at byte 0. -/
def OnChannel (p : Params) (channel : Byte) (now : Time) (w : PortWord) : Prop :=
  ∃ c : List Byte, w = .cmdWord c now ∧ c.length ≤ p.cmdLenMax ∧ cbyte p c 0 = channel

/-- A serial frame: offered at `now`, begun by the sentinel, of `n` bytes. -/
def OnSerial (p : Params) (n : Nat) (now : Time) (w : PortWord) : Prop :=
  ∃ more : List Byte, w = .serialIn p.sentinel more now ∧ more.length + 1 = n

/-- The word an instruction's encoding has to be. -/
def Fits (p : Params) (w : PortWord) : Instr → Prop
  | .cfgIdentify now => OnChannel p p.chConfig now w
  | .cfgHandshake now => OnChannel p p.chConfig now w
  | .cfgBaud now => OnChannel p p.chConfig now w
  | .cfgDisableTimeout now => OnChannel p p.chConfig now w
  | .cfgEnableTimeout now => OnChannel p p.chConfig now w
  | .cfgDefault _ now => OnChannel p p.chConfig now w
  | .featGetState now => OnChannel p p.chFeature now w
  | .featPair now => OnChannel p p.chFeature now w
  | .featDeviceInfo now => OnChannel p p.chFeature now w
  | .featSetMode _ now => OnChannel p p.chFeature now w
  | .featTriggerButtons now => OnChannel p p.chFeature now w
  | .featSetShipment now => OnChannel p p.chFeature now w
  | .featSpiRead _ _ now => OnChannel p p.chFeature now w
  | .featSetNfcIrConfig now => OnChannel p p.chFeature now w
  | .featSetNfcIrState now => OnChannel p p.chFeature now w
  | .featSetPlayerLights _ now => OnChannel p p.chFeature now w
  | .featGetPlayerLights now => OnChannel p p.chFeature now w
  | .featSetHomeLight now => OnChannel p p.chFeature now w
  | .featToggleImu _ now => OnChannel p p.chFeature now w
  | .featSetImuSensitivity now => OnChannel p p.chFeature now w
  | .featReadImu now => OnChannel p p.chFeature now w
  | .featEnableVibration _ now => OnChannel p p.chFeature now w
  | .featGetVoltage now => OnChannel p p.chFeature now w
  | .featLegacyUnknown now => OnChannel p p.chFeature now w
  | .featDefault _ now => OnChannel p p.chFeature now w
  | .cmdIgnored channel now => OnChannel p channel now w
  | .frameLegacy8 _ now => OnSerial p legacyLen now w
  | .frameLenpfx _ _ extra _ now => OnSerial p (7 + extra.length + lenpfxOverhead) now w
  | .rumbleFrame _ => ∃ bytes : List Byte, w = .serialOut bytes ∧ bytes.length = 11
  | .evPowerOn idLow => w = .powerOn idLow
  | .evLinkReset => w = .linkReset
  | .evByteIn b now => w = .serialIn b [] now
  | .evCmdIn c now => w = .cmdIn c now
  | .evTick now txReady suspended => w = .tick now txReady suspended
  | .evRumbleIn r now => w = .rumbleIn r now

/-- In every configuration an instruction's encoding stands on its port. -/
def Statement (i : Instr) : Prop := ∀ p : Params, p.valid = true → i.wf p = true → Fits p (encode p i) i

theorem commandWord_length (off : Nat) (channel sel : Byte) (args : List Byte) :
    (commandWord off channel sel args).length = off + 1 + args.length := by
  by_cases h : off = 0
  · simp [commandWord, h]
    omega
  · simp [commandWord, h]
    omega

theorem onChannel_cfg {p : Params} (h : p.valid = true) {sel : Byte} (hf : selectorFits p.cfgSelOff p.chConfig sel = true)
    (now : Time) : OnChannel p p.chConfig now (.cmdWord (cfgWord p sel) now) := by
  have hc := ((Params.valid_iff p).1 h).cfgOff
  refine ⟨_, rfl, ?_, cbyte_commandWord_channel hc hf⟩
  rw [cfgWord, commandWord_length, List.length_nil]
  omega

theorem onChannel_feat {p : Params} (h : p.valid = true) {sel : Byte} {args : List Byte} (ha : args.length ≤ 5)
    (hf : selectorFits p.featSelOff p.chFeature sel = true) (now : Time) :
    OnChannel p p.chFeature now (.cmdWord (featWord p sel args) now) := by
  have hc := ((Params.valid_iff p).1 h).featOff
  refine ⟨_, rfl, ?_, cbyte_commandWord_channel (by omega) hf⟩
  rw [featWord, commandWord_length]
  omega

theorem cfgIdentify (now : Time) : Statement (.cfgIdentify now) := fun _ h hw => onChannel_cfg h hw now

theorem cfgHandshake (now : Time) : Statement (.cfgHandshake now) := fun _ h hw => onChannel_cfg h hw now

theorem cfgBaud (now : Time) : Statement (.cfgBaud now) := fun _ h hw => onChannel_cfg h hw now

theorem cfgDisableTimeout (now : Time) : Statement (.cfgDisableTimeout now) := fun _ h hw => onChannel_cfg h hw now

theorem cfgEnableTimeout (now : Time) : Statement (.cfgEnableTimeout now) := fun _ h hw => onChannel_cfg h hw now

theorem cfgDefault (sel : Byte) (now : Time) : Statement (.cfgDefault sel now) := fun _ h hw =>
  onChannel_cfg h (Bool.and_eq_true _ _ ▸ hw).1 now

theorem featGetState (now : Time) : Statement (.featGetState now) := fun _ h hw =>
  onChannel_feat h (by simp) hw now

theorem featPair (now : Time) : Statement (.featPair now) := fun _ h hw =>
  onChannel_feat h (by simp) hw now

theorem featDeviceInfo (now : Time) : Statement (.featDeviceInfo now) := fun _ h hw =>
  onChannel_feat h (by simp) hw now

theorem featSetMode (arg : Byte) (now : Time) : Statement (.featSetMode arg now) := fun _ h hw =>
  onChannel_feat h (by simp) hw now

theorem featTriggerButtons (now : Time) : Statement (.featTriggerButtons now) := fun _ h hw =>
  onChannel_feat h (by simp) hw now

theorem featSetShipment (now : Time) : Statement (.featSetShipment now) := fun _ h hw =>
  onChannel_feat h (by simp) hw now

theorem featSpiRead (addr : Addr) (size : Byte) (now : Time) : Statement (.featSpiRead addr size now) := fun _ h hw =>
  onChannel_feat (args := addrBytes addr ++ [size]) h (Nat.le_refl 5) hw now

theorem featSetNfcIrConfig (now : Time) : Statement (.featSetNfcIrConfig now) := fun _ h hw =>
  onChannel_feat h (by simp) hw now

theorem featSetNfcIrState (now : Time) : Statement (.featSetNfcIrState now) := fun _ h hw =>
  onChannel_feat h (by simp) hw now

theorem featSetPlayerLights (arg : Byte) (now : Time) : Statement (.featSetPlayerLights arg now) := fun _ h hw =>
  onChannel_feat h (by simp) hw now

theorem featGetPlayerLights (now : Time) : Statement (.featGetPlayerLights now) := fun _ h hw =>
  onChannel_feat h (by simp) hw now

theorem featSetHomeLight (now : Time) : Statement (.featSetHomeLight now) := fun _ h hw =>
  onChannel_feat h (by simp) hw now

theorem featToggleImu (arg : Byte) (now : Time) : Statement (.featToggleImu arg now) := fun _ h hw =>
  onChannel_feat h (by simp) hw now

theorem featSetImuSensitivity (now : Time) : Statement (.featSetImuSensitivity now) := fun _ h hw =>
  onChannel_feat h (by simp) hw now

theorem featReadImu (now : Time) : Statement (.featReadImu now) := fun _ h hw =>
  onChannel_feat h (by simp) hw now

theorem featEnableVibration (arg : Byte) (now : Time) : Statement (.featEnableVibration arg now) := fun _ h hw =>
  onChannel_feat h (by simp) hw now

theorem featGetVoltage (now : Time) : Statement (.featGetVoltage now) := fun _ h hw =>
  onChannel_feat h (by simp) hw now

theorem featLegacyUnknown (now : Time) : Statement (.featLegacyUnknown now) := fun _ h hw =>
  onChannel_feat h (by simp) hw now

theorem featDefault (sel : Byte) (now : Time) : Statement (.featDefault sel now) := fun _ h hw =>
  onChannel_feat h (by simp) (Bool.and_eq_true _ _ ▸ hw).1 now

theorem cmdIgnored (channel : Byte) (now : Time) : Statement (.cmdIgnored channel now) := by
  intro p h _
  have hc := ((Params.valid_iff p).1 h).cfgOff
  refine ⟨[channel], rfl, ?_, ?_⟩
  · rw [List.length_singleton]
    omega
  · rw [cbyte, if_pos (by omega)]
    rfl

theorem frameLegacy8 (fb : FieldBlock) (now : Time) : Statement (.frameLegacy8 fb now) := fun _ _ _ => ⟨fieldBytes fb, rfl, rfl⟩

theorem frameLenpfx (version : Byte) (fb : FieldBlock) (extra : List Byte) (trailer : Byte) (now : Time) :
    Statement (.frameLenpfx version fb extra trailer now) := by
  intro p _ _
  refine ⟨lenpfxTail version fb extra trailer, rfl, ?_⟩
  simp only [lenpfxTail, fieldBytes, lenpfxOverhead, List.length_cons, List.length_append, List.length_nil]

theorem rumbleFrame (r : Haptic) : Statement (.rumbleFrame r) := fun p _ _ => ⟨rumbleFrameBytes p r, rfl, rfl⟩

theorem evPowerOn (idLow : IdBytes) : Statement (.evPowerOn idLow) := fun _ _ _ => rfl

theorem evLinkReset : Statement .evLinkReset := fun _ _ _ => rfl

theorem evByteIn (b : Byte) (now : Time) : Statement (.evByteIn b now) := fun _ _ _ => rfl

theorem evCmdIn (c : List Byte) (now : Time) : Statement (.evCmdIn c now) := fun _ _ _ => rfl

theorem evTick (now : Time) (txReady : Bool) (suspended : Bool) : Statement (.evTick now txReady suspended) := fun _ _ _ => rfl

theorem evRumbleIn (r : Haptic) (now : Time) : Statement (.evRumbleIn r now) := fun _ _ _ => rfl

end Sys2Proof.Laws.EncodingPort
end

