-- ==== Sys2Proof/Tests/Slice0.lean ====
section
/-! SUPPORT. The model's own tests: ill-formed instructions and configurations are refused, words written out from the
spec's encodings decode, one step gives what 95_test_vectors.md gives, and every statement with hypotheses has a
witness of them. Expected values are the spec's, or worked by hand from its rules. -/

namespace Sys2Proof.Tests

open Sys2Proof.Machine

/-- The state an outcome goes on to. -/
def after (o : Host.Outcome State Fault Refusal) : Option State :=
  match o with
  | .next t => some t
  | _ => none

/-- Why a step was refused. -/
def refusal (o : Host.Outcome State Fault Refusal) : Option Refusal :=
  match o with
  | .refused r => some r
  | _ => none

/-- The reference configuration with legacy frames. -/
def legacyCfg : Params := { Params.refcfg with frameFmt := .legacy8 }

/-- The reference configuration with feature selectors at byte 0. -/
def offset0Cfg : Params := { Params.refcfg with featSelOff := 0 }

/-- The reset state in another configuration. -/
def resetWith (p : Params) : State := { State.reset with cfg := p }

/-- The reset state with words offered. -/
def offered (ws : List PortWord) : State := { State.reset with inbox := ws }

/-- SYNCING after the bytes given, the last at time t. -/
def syncing (p : Params) (bytes : List Byte) (exp : Option Nat) (t : Time) : State :=
  { State.reset with cfg := p, fdState := .syncing, fdBuf := bytes, fdCnt := bytes.length, fdExp := exp, fdLastT := t }

/-- Bring-up done (44_report_scheduler.md R161), nothing sent yet. -/
def readyState : State := { State.reset with ready := true, initialized := true }

/-- A feature word: channel id, nine zeros, selector and arguments (30_encoding.md R77, R94). -/
def featureWord (rest : List Byte) : List Byte := [0x01, 0, 0, 0, 0, 0, 0, 0, 0, 0] ++ rest

/-- The instruction one word decodes to, when nothing is left of it. -/
def decoded (p : Params) (w : PortWord) : Option Instr :=
  match decode p w with
  | .ok (i, []) => some i
  | _ => none

/-- The length and the first n bytes of every report driven. -/
def sent (n : Nat) (s : State) : List (Nat × List Byte) :=
  (reportsOf s.outputs).map fun r => (r.length, r.take n)

/-- The field block of vector FL1. -/
def yBlock : FieldBlock := ⟨0x01, 0x00, 0x00, 0x80, 0x80, 0x80, 0x80⟩

/-! ## Well-formedness: an ill-formed term for each check -/

theorem test_wf_cfgDefault_takes_no_code : Instr.wf Params.refcfg (.cfgDefault 0x04 0) = false := by decide

theorem test_wf_featDefault_takes_no_code : Instr.wf Params.refcfg (.featDefault 0x10 0) = false := by decide

theorem test_wf_cmdIgnored_takes_no_config_channel : Instr.wf Params.refcfg (.cmdIgnored 0x80 0) = false := by decide

theorem test_wf_cmdIgnored_takes_no_feature_channel : Instr.wf Params.refcfg (.cmdIgnored 0x01 0) = false := by decide

theorem test_wf_selector_at_offset_0 :
    Instr.wf offset0Cfg (.featSpiRead 0 0 0) = false ∧ Instr.wf offset0Cfg (.featPair 0) = true
      ∧ Instr.wf { Params.refcfg with cfgSelOff := 0 } (.cfgDisableTimeout 0) = false
      ∧ Instr.wf { Params.refcfg with cfgSelOff := 0 } (.cfgDefault 0x7F 0) = false
      ∧ Instr.wf offset0Cfg (.featDefault 0x7E 0) = false := by decide

theorem test_wf_legacy_frame_needs_legacy8 :
    Instr.wf Params.refcfg (.frameLegacy8 yBlock 0) = false ∧ Instr.wf legacyCfg (.frameLegacy8 yBlock 0)
        = true := by decide

theorem test_wf_lenpfx_frame_needs_lenpfx :
    Instr.wf legacyCfg (.frameLenpfx 1 yBlock [] 0 0) = false ∧ Instr.wf Params.refcfg (.frameLenpfx 1 yBlock [] 0 0)
        = true := by decide

theorem test_wf_frame_too_short :
    Instr.wf { Params.refcfg with fdMinFrame := 12 } (.frameLenpfx 1 yBlock [] 0 0) = false := by decide

theorem test_wf_frame_too_long :
    Instr.wf Params.refcfg (.frameLenpfx 1 yBlock (List.replicate 54 0) 0 0) = false
      ∧ Instr.wf Params.refcfg (.frameLenpfx 1 yBlock (List.replicate 53 0) 0 0) = true := by decide

/-! ## Configurations: each constraint of 00_scope.md R8 refuses -/

theorem test_refcfg_is_valid :
    Params.valid Params.refcfg = true ∧ Params.valid legacyCfg = true ∧ Params.valid offset0Cfg = true := by decide

theorem test_broken_constraints_are_refused :
    [{ Params.refcfg with btnMap := .y :: refBtnMap.tail ++ [.y] },
      { Params.refcfg with btnMap := .b :: refBtnMap.tail },
      { Params.refcfg with fdMinFrame := 10 },
      { Params.refcfg with fdMinFrame := 65 },
      { Params.refcfg with fdBufCap := 260 },
      { Params.refcfg with dirMap := [⟨0x00, ⟨true, false, false, false⟩⟩] },
      { Params.refcfg with cal := { Params.refcfg.cal with leftX := ⟨0x801, 0x800, 0xF00⟩ } },
      { Params.refcfg with cal := { Params.refcfg.cal with leftY := ⟨0x100, 0xF01, 0xF00⟩ } },
      { Params.refcfg with cal := { Params.refcfg.cal with rightX := ⟨0x801, 0x800, 0xF00⟩ } },
      { Params.refcfg with cal := { Params.refcfg.cal with rightY := ⟨0x100, 0xF01, 0xF00⟩ } },
      { Params.refcfg with sendIntervalMs := 0 },
      { Params.refcfg with chFeature := 0x80 },
      { Params.refcfg with cfgSelOff := 64 },
      { Params.refcfg with featSelOff := 59 },
      { Params.refcfg with cfgCodes := { refCfgCodes with baud := 0x01 } },
      { Params.refcfg with featCodes := { refFeatCodes with pair := 0x00 } },
      { Params.refcfg with spiReadMax := 45 },
      { Params.refcfg with flashMap := [⟨0x00006001, []⟩] },
      { Params.refcfg with flashMap := [⟨0x00006000, List.replicate 257 0⟩] },
      { Params.refcfg with flashMap := [⟨0x00006000, []⟩, ⟨0x00006000, [1]⟩] }].any Params.valid = false := by decide

theorem test_step_refuses_a_bad_configuration :
    refusal (step (resetWith { Params.refcfg with fdMinFrame := 10 })) = some .badConfiguration := by decide

theorem test_step_refuses_what_is_no_rumble_frame :
    refusal (step (offered [.serialOut [0xBB, 0x01]])) = some (.undecodable .rumbleLength)
      ∧ refusal (step (offered [.serialOut [0xBB, 0x02, 0, 0, 0, 0, 0, 0, 0, 0, 0xBD]]))
          = some (.undecodable .rumbleHeader)
      ∧ refusal (step (offered [.serialOut [0xBB, 0x01, 0, 0, 0, 0, 0, 0, 0, 0, 0xBB]]))
          = some (.undecodable .rumbleChecksum) := by decide

/-! ## Decoding: one word written out from the spec for each constructor (30_encoding.md R68 to R91) -/

theorem test_decode_cfgIdentify : decoded Params.refcfg (.cmdWord [0x80, 0x01] 7) = some (.cfgIdentify 7) := by decide

theorem test_decode_cfgHandshake :
    decoded Params.refcfg (.cmdWord [0x80, 0x02] 7) = some (.cfgHandshake 7) := by decide

theorem test_decode_cfgBaud : decoded Params.refcfg (.cmdWord [0x80, 0x03] 7) = some (.cfgBaud 7) := by decide

theorem test_decode_cfgDisableTimeout :
    decoded Params.refcfg (.cmdWord [0x80, 0x04] 7) = some (.cfgDisableTimeout 7) := by decide

theorem test_decode_cfgEnableTimeout :
    decoded Params.refcfg (.cmdWord [0x80, 0x05] 7) = some (.cfgEnableTimeout 7) := by decide

theorem test_decode_cfgDefault :
    decoded Params.refcfg (.cmdWord [0x80, 0xFF] 7) = some (.cfgDefault 0xFF 7) := by decide

theorem test_decode_featGetState :
    decoded Params.refcfg (.cmdWord (featureWord [0x00]) 7) = some (.featGetState 7) := by decide

theorem test_decode_featPair :
    decoded Params.refcfg (.cmdWord (featureWord [0x01, 0x01]) 7) = some (.featPair 7) := by decide

theorem test_decode_featDeviceInfo :
    decoded Params.refcfg (.cmdWord (featureWord [0x02]) 7) = some (.featDeviceInfo 7) := by decide

theorem test_decode_featSetMode :
    decoded Params.refcfg (.cmdWord (featureWord [0x03, 0x30]) 7) = some (.featSetMode 0x30 7) := by decide

theorem test_decode_featTriggerButtons :
    decoded Params.refcfg (.cmdWord (featureWord [0x04]) 7) = some (.featTriggerButtons 7) := by decide

theorem test_decode_featSetShipment :
    decoded Params.refcfg (.cmdWord (featureWord [0x08, 0x01]) 7) = some (.featSetShipment 7) := by decide

theorem test_decode_featSpiRead :
    decoded Params.refcfg (.cmdWord (featureWord [0x10, 0x78, 0x56, 0x34, 0x12, 0x1D]) 7)
        = some (.featSpiRead 0x12345678 0x1D 7) := by decide

theorem test_decode_featSetNfcIrConfig :
    decoded Params.refcfg (.cmdWord (featureWord [0x21, 0x21, 0x00]) 7) = some (.featSetNfcIrConfig 7) := by decide

theorem test_decode_featSetNfcIrState :
    decoded Params.refcfg (.cmdWord (featureWord [0x22, 0x01]) 7) = some (.featSetNfcIrState 7) := by decide

theorem test_decode_featSetPlayerLights :
    decoded Params.refcfg (.cmdWord (featureWord [0x30, 0x05]) 7) = some (.featSetPlayerLights 0x05 7) := by decide

theorem test_decode_featGetPlayerLights :
    decoded Params.refcfg (.cmdWord (featureWord [0x31]) 7) = some (.featGetPlayerLights 7) := by decide

theorem test_decode_featSetHomeLight :
    decoded Params.refcfg (.cmdWord (featureWord [0x38, 0xFF]) 7) = some (.featSetHomeLight 7) := by decide

theorem test_decode_featToggleImu :
    decoded Params.refcfg (.cmdWord (featureWord [0x40, 0x02]) 7) = some (.featToggleImu 0x02 7) := by decide

theorem test_decode_featSetImuSensitivity :
    decoded Params.refcfg (.cmdWord (featureWord [0x41, 0x03, 0x00, 0x01, 0x01]) 7)
        = some (.featSetImuSensitivity 7) := by decide

theorem test_decode_featReadImu :
    decoded Params.refcfg (.cmdWord (featureWord [0x43, 0x20, 0x01]) 7) = some (.featReadImu 7) := by decide

theorem test_decode_featEnableVibration :
    decoded Params.refcfg (.cmdWord (featureWord [0x48, 0x01]) 7) = some (.featEnableVibration 0x01 7) := by decide

theorem test_decode_featGetVoltage :
    decoded Params.refcfg (.cmdWord (featureWord [0x50]) 7) = some (.featGetVoltage 7) := by decide

theorem test_decode_featLegacyUnknown :
    decoded Params.refcfg (.cmdWord (featureWord [0x33]) 7) = some (.featLegacyUnknown 7) := by decide

theorem test_decode_featDefault :
    decoded Params.refcfg (.cmdWord (featureWord [0x7E]) 7) = some (.featDefault 0x7E 7) := by decide

/-- Vectors CC13 and CC11. -/
theorem test_decode_cmdIgnored :
    decoded Params.refcfg (.cmdWord [0x81, 0x01] 7) = some (.cmdIgnored 0x81 7)
      ∧ decoded Params.refcfg (.cmdWord [] 7) = some (.cmdIgnored 0x00 7) := by decide

theorem test_decode_frameLegacy8 :
    decoded legacyCfg (.serialIn 0xAA [0x01, 0x00, 0x02, 0x03, 0x04, 0x05, 0x06] 7)
      = some (.frameLegacy8 ⟨0x01, 0x00, 0x02, 0x03, 0x04, 0x05, 0x06⟩ 7) := by decide

/-- Vector FD8a. -/
theorem test_decode_frameLenpfx :
    decoded Params.refcfg (.serialIn 0xAA [0x05, 0x08, 0x00, 0x00, 0x03, 0x00, 0x00, 0x00, 0x00, 0x77, 0x99] 7)
      = some (.frameLenpfx 0x05 ⟨0x00, 0x00, 0x03, 0x00, 0x00, 0x00, 0x00⟩ [0x77] 0x99 7) := by decide

/-- Table RR, last row. -/
theorem test_decode_rumbleFrame :
    decoded Params.refcfg (.serialOut [0xBB, 0x01, 0x80, 0x00, 0x00, 0x00, 0x00, 0x00, 0x00, 0x3F, 0x7B])
      = some (.rumbleFrame ⟨0x80, 0, 0, 0, 0, 0, 0, 0x3F⟩) := by decide

theorem test_decode_evPowerOn :
    decoded Params.refcfg (.powerOn ⟨0x12, 0x34, 0x56⟩) = some (.evPowerOn ⟨0x12, 0x34, 0x56⟩) := by decide

theorem test_decode_evLinkReset : decoded Params.refcfg .linkReset = some .evLinkReset := by decide

theorem test_decode_evByteIn :
    decoded Params.refcfg (.serialIn 0x55 [] 7) = some (.evByteIn 0x55 7) ∧ decoded Params.refcfg (.serialIn 0xAA [] 7)
        = some (.evByteIn 0xAA 7) := by decide

theorem test_decode_evCmdIn :
    decoded Params.refcfg (.cmdIn [0x80, 0x01] 7) = some (.evCmdIn [0x80, 0x01] 7) := by decide

theorem test_decode_evTick : decoded Params.refcfg (.tick 7 true false) = some (.evTick 7 true false) := by decide

theorem test_decode_evRumbleIn :
    decoded Params.refcfg (.rumbleIn ⟨1, 2, 3, 4, 5, 6, 7, 8⟩ 7)
        = some (.evRumbleIn ⟨1, 2, 3, 4, 5, 6, 7, 8⟩ 7) := by decide

/-- Vectors FC25 and SR14: bytes past the word read 0x00. -/
theorem test_decode_short_feature_word :
    decoded Params.refcfg (.cmdWord [0x01] 0) = some (.featGetState 0)
      ∧ decoded Params.refcfg (.cmdWord (featureWord [0x10, 0x10, 0x60]) 0)
          = some (.featSpiRead 0x00006010 0x00 0) := by decide

/-- Total 10 is below `FD_MIN_FRAME`: no frame stands at the head, so its first byte comes alone. -/
theorem test_decode_length_out_of_range :
    (decode Params.refcfg (.serialIn 0xAA [0x01, 0x06, 0x00, 0x00, 0x00, 0x00, 0x00, 0x00, 0x00, 0x00] 0)).toOption
      = some (.evByteIn 0xAA 0, [.serialIn 0x01 [0x06, 0x00, 0x00, 0x00, 0x00, 0x00, 0x00, 0x00, 0x00] 0]) := by decide

/-- Keys of spec/opcode_table.json. -/
theorem test_table_keys :
    decodeTableWord 16 0x8001 = some (.cfgIdentify 0) ∧ decodeTableWord 16 0x0110 = some (.featSpiRead 0 0 0)
      ∧ decodeTableWord 16 0x80FE = some (.cfgDefault 0xFE 0) ∧ decodeTableWord 8 0x55 = some (.cmdIgnored 0x55 0)
      ∧ decodeTableWord 8 0xAA = some (.frameLenpfx 0 ⟨0, 0, 0, 0, 0, 0, 0⟩ [] 0 0)
      ∧ decodeTableWord 16 0xBB01 = some (.rumbleFrame ⟨0, 0, 0, 0, 0, 0, 0, 0⟩) := by decide

theorem test_table_key_runs_first :
    (after (step (State.reset.withFetchWord 16 0x8004))).map (fun t => (t.ready, t.prPayload, t.inbox))
      = some (true, [0x04], []) := by decide

/-! ## One step: the vectors of 95_test_vectors.md -/

/-- Vector CC1. -/
theorem test_identify :
    (after (exec (.evCmdIn [0x80, 0x01] 3) State.reset)).map
        (fun t => (t.prPayload, t.lastHostT))
        = some ([0x01, 0x00, 0x03, 0x56, 0x34, 0x12, 0x8A, 0xBB, 0x7C], 3) := by decide

/-- Vector CC4. -/
theorem test_disable_timeout :
    (after (exec (.evCmdIn [0x80, 0x04] 3) State.reset)).map
        (fun t => (t.prPayload, t.ready, t.initialized))
        = some ([0x04], true, false) := by decide

/-- Vector CC5 after CC4. -/
theorem test_enable_timeout_keeps_ready :
    (after (exec (.cfgEnableTimeout 3) readyState)).map
        (fun t => (t.prPayload, t.ready))
        = some ([0x05], true) := by decide

/-- Vector CC10. -/
theorem test_handshake_ignores_further_bytes :
    (after (exec (.evCmdIn [0x80, 0x02, 0xFF, 0xFF] 3) State.reset)).map
        (fun t => (t.prValid, t.prPayload))
        = some (true, [0x02]) := by decide

/-- Vector CC12. -/
theorem test_unknown_channel_changes_nothing :
    (after (exec (.evCmdIn [0x02, 0x01] 3) State.reset)).map
        (fun t => (t.prValid, t.lastHostT))
        = some (false, 0) := by decide

/-- Vector CC14. -/
theorem test_reply_is_replaced :
    (after (exec (.cfgHandshake 10) { State.reset with prValid := true, prPayload := [0x03], lastHostT := 9 })).map
        (fun t => (t.prValid, t.prPayload))
        = some (true, [0x02]) := by decide

/-- Vector FC3. -/
theorem test_device_info :
    (after (exec (.featDeviceInfo 0) State.reset)).map
        (fun t => t.prPayload)
        = some ([0x82, 0x02, 0x03, 0x48, 0x03, 0x7C, 0xBB, 0x8A, 0x12, 0x34, 0x56, 0x01]) := by decide

/-- Vector FC4. -/
theorem test_set_mode :
    (after (exec (.featSetMode 0x30 0) State.reset)).map
        (fun t => (t.prPayload, t.inputMode))
        = some ([0x80, 0x03], 0x30) := by decide

/-- Vector FC11. -/
theorem test_set_player_lights :
    (after (exec (.featSetPlayerLights 0xFF 0) State.reset)).map
        (fun t => (t.prPayload, t.playerId))
        = some ([0x80, 0x30], 0xFF) := by decide

/-- Vector FC12. -/
theorem test_get_player_lights :
    (after (exec (.featGetPlayerLights 0) { State.reset with playerId := 0xFF })).map
        (fun t => t.prPayload)
        = some ([0xB0, 0x31, 0xFF]) := by decide

/-- Vector FC15. -/
theorem test_toggle_imu_any_nonzero :
    (after (exec (.featToggleImu 0x02 0) State.reset)).map
        (fun t => (t.prPayload, t.imuEn, t.vibEn))
        = some ([0x80, 0x40], true, false) := by decide

/-- Vector FC19. -/
theorem test_enable_vibration_off :
    (after (exec (.featEnableVibration 0x00 0) { State.reset with vibEn := true })).map
        (fun t => (t.prPayload, t.vibEn))
        = some ([0x80, 0x48], false) := by decide

/-- Vector FC24. -/
theorem test_feature_default :
    (after (exec (.featDefault 0xFF 0) State.reset)).map (fun t => t.prPayload) = some ([0x80, 0xFF]) := by decide

/-- The 256 selectors less the 18 codes of 30_encoding.md R86 (log 22). -/
theorem test_feature_default_selectors :
    ((List.range 256).filter fun n => (selectFeat Params.refcfg (BitVec.ofNat 8 n)).isNone).length = 238 := by
  decide +kernel

/-- Vector FC29. -/
theorem test_word_past_its_length_limit :
    (after (exec (.evCmdIn ([0x01, 0xAA, 0xBB, 0xCC, 0xDD, 0xEE, 0xFF, 0x11, 0x22, 0x33, 0x30,
          0x07] ++ List.replicate 60 0) 0) State.reset)).map
        (fun t => (t.prPayload, t.playerId))
        = some ([0x80, 0x30], 0x07) := by decide

/-- Vector SR1. -/
theorem test_spi_read :
    (after (exec (.featSpiRead 0x00006010 0x04 0) State.reset)).map
        (fun t => t.prPayload)
        = some ([0x90, 0x10, 0x10, 0x60, 0x00, 0x00, 0x04, 0x10, 0x11, 0x12, 0x13]) := by decide +kernel

/-- Vector SR5. -/
theorem test_spi_read_is_capped :
    (after (exec (.featSpiRead 0x00006000 0xFF 0) State.reset)).map
        (fun t => (t.prPayload.length, t.prPayload.take 9))
        = some (36, [0x90, 0x10, 0x00, 0x60, 0x00, 0x00, 0xFF, 0x00, 0x01]) := by decide +kernel

/-- Vector SR7. -/
theorem test_spi_read_past_the_blob :
    (after (exec (.featSpiRead 0x000060FC 0x06 0) State.reset)).map
        (fun t => t.prPayload)
        = some ([0x90, 0x10, 0xFC, 0x60, 0x00, 0x00, 0x06, 0xFC, 0xFD, 0xFE, 0xFF, 0xFF, 0xFF]) := by decide +kernel

/-- Vector SR12. -/
theorem test_spi_read_at_the_top :
    (after (exec (.featSpiRead 0xFFFFFFFF 0x02 0) State.reset)).map
        (fun t => t.prPayload)
        = some ([0x90, 0x10, 0xFF, 0xFF, 0xFF, 0xFF, 0x02, 0xFF, 0xFF]) := by decide

/-- Vector FL2. -/
theorem test_legacy_frame :
    (after (exec (.frameLegacy8 ⟨0xAA, 0xAA, 0xAA, 0xAA, 0xAA, 0xAA, 0xAA⟩ 0) (resetWith legacyCfg))).map
        (fun t => (t.input.btn, t.input.dpad, t.input.lx, t.input.ly, t.input.rx, t.input.ry))
        = some (
          { Buttons.none with
            b := true, x := true, r := true, zr := true, plus := true, rStick := true, capture := true },
          ⟨false, false, false, false⟩, 0xAAAA, 0xAAAA, 0xAAAA, 0xAAAA) := by decide

/-- Vector FD8. -/
theorem test_lenpfx_frame :
    (after (exec (.frameLenpfx 0x02 ⟨0x00, 0x10, 0x05, 0x00, 0x40, 0xC0, 0xFF⟩ [0x11, 0x22] 0x33 0) State.reset)).map
        (fun t => (t.input.btn, t.input.dpad, t.input.lx, t.input.ly, t.input.rx, t.input.ry))
        = some ({ Buttons.none with home := true }, ⟨false, true, false, false⟩, 0x0000, 0x4040, 0xC0C0,
          0xFFFF) := by decide

/-- Vector FD1. -/
theorem test_lenpfx_frame_events :
    (after (exec (.frameLenpfx 0x01 yBlock [] 0 0) State.reset)).map
        (fun t => (t.outputs, t.fdState, t.fdCnt))
        = some (List.replicate 10 (.fdEvt .none) ++ [.fdEvt .frame], .idle, 0) := by decide

/-- Vector FD10. -/
theorem test_gap_of_20_is_in_time :
    (after (exec (.evByteIn 0x07 40) (syncing Params.refcfg [0xAA, 0x01] none 20))).map
        (fun t => (t.fdCnt, t.fdExp, t.outputs))
        = some (3, some 11, [.fdEvt .none]) := by decide

/-- Vector FD9. -/
theorem test_gap_of_21_is_late :
    (after (exec (.evByteIn 0x07 22) (syncing Params.refcfg [0xAA, 0x01] none 1))).map
        (fun t => (t.fdCnt, t.outputs))
        = some (0, [.fdEvt .dropTimeout]) := by decide

/-- Vector FD11. -/
theorem test_late_sentinel_begins_a_frame :
    (after (exec (.evByteIn 0xAA 30) (syncing Params.refcfg [0xAA, 0x01] none 1))).map
        (fun t => (t.fdBuf, t.fdState, t.outputs))
        = some ([0xAA], .syncing, [.fdEvt .dropTimeout]) := by decide

/-- Vector FD14. -/
theorem test_gap_wraps :
    (after (exec (.evByteIn 0x01 5) (syncing Params.refcfg [0xAA] none 0xFFFFFFF0))).map
        (fun t => (t.fdCnt, t.outputs))
        = some (0, [.fdEvt .dropTimeout]) := by decide

/-- Vector FD4. -/
theorem test_length_65_is_dropped :
    (after (exec (.evByteIn 0x3D 0) (syncing Params.refcfg [0xAA, 0x01] none 0))).map
        (fun t => (t.fdCnt, t.outputs))
        = some (0, [.fdEvt .dropLen]) := by decide

/-- Vector RS1. -/
theorem test_tick_identifies :
    (after (exec (.evTick 7 true false) State.reset)).map (fun t => (t.initialized, t.lastSentT, t.ctr))
        = some (true, (7 : Time), (1 : Byte))
      ∧ (after (exec (.evTick 7 true false) State.reset)).map (sent 11)
        = some [(64, [0x81, 0x01, 0x00, 0x03, 0x56, 0x34, 0x12, 0x8A, 0xBB, 0x7C, 0x00])] := by decide

/-- Vectors RS1 and RS7. -/
theorem test_tick_at_4_is_early :
    (after (exec (.evTick 4 true true) State.reset)).map
        (fun t => (t.initialized, t.outputs))
        = some (false, [.wakeReq true]) := by decide

/-- Vector RS9. -/
theorem test_tick_sends_a_report_and_the_counter_wraps :
    (after (exec (.evTick 100 true false) { readyState with ctr := 0xFF })).map
        (fun t => (t.ctr, sent 12 t))
        = some (0x00, [(64, [0x30, 0xFF, 0x91, 0x00, 0x00, 0x00, 0x00, 0xF8, 0x7F, 0x00, 0xF8, 0x7F])]) := by decide

/-- Vector RS9. -/
theorem test_tick_sends_a_feature_reply :
    (after (exec (.evTick 105 true false)
        { readyState with lastSentT := 100, prValid := true, prChan := .feat, prPayload := [0x80, 0x00] })).map
        (fun t => (t.ctr, t.prValid, sent 15 t))
        = some (0x01, false, [(64,
        [0x21, 0x00, 0x91, 0x00, 0x00, 0x00, 0x00, 0xF8, 0x7F, 0x00, 0xF8, 0x7F, 0x00, 0x80, 0x00])]) := by decide

/-- Vector RS10. -/
theorem test_tick_time_wraps :
    (after (exec (.evTick 2 true false) { readyState with lastSentT := 0xFFFFFFFE })).map
        (fun t => t.outputs)
        = some ([.wakeReq false]) := by decide

/-- Vector RB2. -/
theorem test_whole_report :
    buildInput Params.refcfg ⟨Buttons.ofNames (fun _ => true), ⟨true, false, false, true⟩, 0, 0, 0xFFFF, 0xFFFF⟩ 0x7F
      = [0x30, 0x7F, 0x91, 0xCF, 0x3F, 0xC6, 0x00, 0x01, 0xF0, 0xFF, 0x0F, 0x00] ++ List.replicate 52 0 := by decide

/-- Table S5. -/
theorem test_same_ignores_low_bits :
    same 64 (buildInput Params.refcfg { InputState.neutral Params.refcfg with lx := 0x8001 } 1)
      (buildInput Params.refcfg (InputState.neutral Params.refcfg) 2) = true
    ∧ same 64 (buildInput Params.refcfg { InputState.neutral Params.refcfg with lx := 0x8090 } 1)
      (buildInput Params.refcfg (InputState.neutral Params.refcfg) 2) = false := by decide

/-- Table RR. -/
theorem test_rumble :
    (after (exec (.evRumbleIn ⟨0xFF, 0xFF, 0xFF, 0xFF, 0xFF, 0xFF, 0xFF, 0xFF⟩ 0) State.reset)).map
        (fun t => t.outputs)
        = some ([.serialTx [0xBB, 0x01, 0xFF, 0xFF, 0xFF, 0xFF, 0xFF, 0xFF, 0xFF, 0xFF, 0xB4]]) := by decide

/-- Vector RS6. -/
theorem test_link_reset :
    (after (exec (.evLinkReset) { readyState with snapValid := true, prValid := true, ctr := 5 })).map
        (fun t => (t.ready, t.initialized, t.snapValid, t.prValid, t.ctr))
        = some (false, false, false, false, 5) := by decide

/-- 70_reset_and_hazards.md R195. -/
theorem test_power_on :
    (after (exec (.evPowerOn ⟨1, 2, 3⟩) { syncing Params.refcfg [0xAA] none 9 with ready := true, ctr := 5 })).map
        (fun t => (t.ready, t.idLow, t.ctr, t.fdState))
        = some (false, ⟨1, 2, 3⟩, 0, .idle) := by decide

/-- A byte equal to the fill byte is not listed (log 14). -/
theorem test_flash_image_is_canonical :
    Memory.wf 0xFF (flashImage { Params.refcfg with flashMap := [⟨0x100, [1, 0xFF, 3]⟩] }) = true
      ∧ flashImage { Params.refcfg with flashMap := [⟨0x100, [1, 0xFF, 3]⟩] } = [(0x100, 1), (0x102, 3)] := by decide

/-! ## Witnesses: for every statement with hypotheses, a state and operands that meet them together -/

theorem test_witness_StepKeepsTheInvariant :
    Inv (offered [.tick 5 true false])
      ∧ (after (step (offered [.tick 5 true false]))).isSome = true := by
  refine ⟨⟨by decide, ⟨?_, ?_, ?_, ?_, ?_, ?_, ?_, ?_⟩, ?_, ?_, ?_⟩, by decide⟩ <;> simp [offered, State.reset]

theorem test_witness_IdleByteBeginsAFrameOrIsDiscarded :
    State.reset.fdState = .idle ∧ (0xAA : Byte) = State.reset.cfg.sentinel ∧ (0xAB : Byte) ≠ State.reset.cfg.sentinel
      ∧ (resetWith legacyCfg).fdState = .idle := by decide

theorem test_witness_StalledFrameIsDropped :
    (syncing Params.refcfg [0xAA] none 1).fdState = .syncing ∧ (syncing Params.refcfg [0xAA] none 1).cfg.fdTimeoutMs
      < ((22 : Time) - (syncing Params.refcfg [0xAA] none 1).fdLastT).toNat := by decide

/-- Totals 65, 10, 64 and 11, at a gap of exactly 20. -/
theorem test_witness_LengthByteIsChecked :
    let s := syncing Params.refcfg [0xAA, 0x01] none 20
    s.cfg.valid = true ∧ s.cfg.frameFmt = .lenPfx ∧ s.fdState = .syncing ∧ s.fdCnt = 2
      ∧ ((40 : Time) - s.fdLastT).toNat ≤ s.cfg.fdTimeoutMs
      ∧ (s.cfg.fdBufCap < (0x3D : Byte).toNat + 4 ∨ (0x3D : Byte).toNat + 4 < s.cfg.fdMinFrame)
      ∧ (s.cfg.fdBufCap < (0x06 : Byte).toNat + 4 ∨ (0x06 : Byte).toNat + 4 < s.cfg.fdMinFrame)
      ∧ ¬ (s.cfg.fdBufCap < (0x3C : Byte).toNat + 4 ∨ (0x3C : Byte).toNat + 4 < s.cfg.fdMinFrame)
      ∧ ¬ (s.cfg.fdBufCap < (0x07 : Byte).toNat + 4 ∨ (0x07 : Byte).toNat + 4 < s.cfg.fdMinFrame) := by decide

theorem test_witness_FrameByteIsAppended :
    let s := syncing Params.refcfg [0xAA] none 20
    let r := syncing legacyCfg [0xAA, 0x01, 0x00, 0x00, 0x80, 0x80] (some 8) 20
    s.fdState = .syncing ∧ ((40 : Time) - s.fdLastT).toNat ≤ s.cfg.fdTimeoutMs
      ∧ (s.cfg.frameFmt = .legacy8 ∨ s.fdCnt ≠ 2) ∧ s.fdExp ≠ some (s.fdCnt + 1)
      ∧ r.fdState = .syncing ∧ ((40 : Time) - r.fdLastT).toNat ≤ r.cfg.fdTimeoutMs
      ∧ (r.cfg.frameFmt = .legacy8 ∨ r.fdCnt ≠ 2) ∧ r.fdExp ≠ some (r.fdCnt + 1) := by decide

theorem test_witness_LastFrameByteOverwritesInputState :
    let s := syncing Params.refcfg [0xAA, 0x01, 0x07, 0x01, 0x00, 0x02, 0x03, 0x04, 0x05, 0x06] (some 11) 20
    let r := syncing legacyCfg [0xAA, 0x01, 0x00, 0x02, 0x03, 0x04, 0x05] (some 8) 20
    (s.fdState = .syncing ∧ ((40 : Time) - s.fdLastT).toNat ≤ s.cfg.fdTimeoutMs
      ∧ (s.cfg.frameFmt = .legacy8 ∨ s.fdCnt ≠ 2) ∧ s.fdExp = some (s.fdCnt + 1)
      ∧ ((s.fdBuf ++ [0x99]).drop (match s.cfg.frameFmt with | .legacy8 => 1 | .lenPfx => 3)).take 7
        = [0x01, 0x00, 0x02, 0x03, 0x04, 0x05, 0x06])
      ∧ r.fdState = .syncing ∧ ((40 : Time) - r.fdLastT).toNat ≤ r.cfg.fdTimeoutMs
      ∧ (r.cfg.frameFmt = .legacy8 ∨ r.fdCnt ≠ 2) ∧ r.fdExp = some (r.fdCnt + 1)
      ∧ ((r.fdBuf ++ [0x06]).drop (match r.cfg.frameFmt with | .legacy8 => 1 | .lenPfx => 3)).take 7
        = [0x01, 0x00, 0x02, 0x03, 0x04, 0x05, 0x06] := by decide

theorem test_witness_LegacyFrameIsDecoded :
    (resetWith legacyCfg).cfg.frameFmt = .legacy8 ∧ (resetWith legacyCfg).fdState = .idle := by decide

/-- Lengths 11 and 64. -/
theorem test_witness_LengthPrefixedFrameIsDecoded :
    State.reset.cfg.valid = true ∧ State.reset.cfg.frameFmt = .lenPfx ∧ State.reset.fdState = .idle
      ∧ State.reset.cfg.fdMinFrame ≤ ([] : List Byte).length + 11
      ∧ (List.replicate 53 (0 : Byte)).length + 11 ≤ State.reset.cfg.fdBufCap := by decide

theorem test_witness_ButtonMaskBitsAreTheMappedButtons :
    Params.refcfg.valid = true ∧ Params.refcfg.btnMap[13]? = some .capture
      ∧ Params.refcfg.btnMap[0]? = some .y
      ∧ (∀ k, k < 14 → (0xC001 : Half).getLsbD k = (0x0001 : Half).getLsbD k) ∧ 7 < 8 := by decide

theorem test_witness_ReferenceDirectionCodes : 9 ≤ (0x09 : Byte).toNat := by decide

theorem test_witness_InputStateChangesOnlyAtFrameOrPowerOn :
    ((after (exec (.frameLenpfx 1 yBlock [] 0 0) State.reset)).map State.input).all (· != State.reset.input) = true
      ∧ (after (exec (.frameLenpfx 1 yBlock [] 0 0) State.reset)).isSome = true
      ∧ ((after (exec (.evPowerOn ⟨0, 0, 0⟩) { State.reset with input := decodeFields Params.refcfg yBlock })).map
          State.input).all (· != decodeFields Params.refcfg yBlock) = true
      ∧ (after (exec (.evPowerOn ⟨0, 0, 0⟩) { State.reset with input := decodeFields Params.refcfg yBlock })).isSome
          = true := by decide

theorem test_witness_ScaledXAxisIsTheClampedShift :
    Params.refcfg.cal.leftX.ordered = true ∧ (0x800F : Half).toNat / 16 = (0x8000 : Half).toNat / 16
      ∧ (⟨0x800, 0x800, 0x800⟩ : Calibration).ordered = true := by decide

theorem test_witness_ScaledAxesLieInTheirRange :
    Params.refcfg.cal.rightY.ordered = true ∧ (⟨0, 0, 0⟩ : Calibration).ordered = true := by decide

theorem test_witness_InputReportLayout :
    Params.refcfg.valid = true ∧ { Params.refcfg with reportLen := 20, spiReadMax := 0 }.valid = true := by decide

theorem test_witness_ReplyFramesHoldTheirPayload :
    State.reset.cfg.valid = true ∧ (List.replicate 63 (0 : Byte)).length + 1 ≤ State.reset.cfg.reportLen
      ∧ (List.replicate 51 (0 : Byte)).length + 13 ≤ State.reset.cfg.reportLen := by decide

theorem test_witness_IdentifyReply :
    State.reset.cfg.valid = true
      ∧ cbyte State.reset.cfg [0x80, 0x01] 0 = State.reset.cfg.chConfig
      ∧ cbyte State.reset.cfg [0x80, 0x01] State.reset.cfg.cfgSelOff = State.reset.cfg.cfgCodes.identify := by decide

theorem test_witness_ConfigurationAcknowledgments :
    State.reset.cfg.valid = true
      ∧ cbyte State.reset.cfg [0x80, 0x02] 0 = State.reset.cfg.chConfig
      ∧ cbyte State.reset.cfg [0x80, 0x02] State.reset.cfg.cfgSelOff = State.reset.cfg.cfgCodes.handshake
      ∧ cbyte State.reset.cfg [0x80, 0x03] 0 = State.reset.cfg.chConfig
      ∧ cbyte State.reset.cfg [0x80, 0x03] State.reset.cfg.cfgSelOff = State.reset.cfg.cfgCodes.baud
      ∧ cbyte State.reset.cfg [0x80, 0x05] 0 = State.reset.cfg.chConfig
      ∧ cbyte State.reset.cfg [0x80, 0x05] State.reset.cfg.cfgSelOff = State.reset.cfg.cfgCodes.enableTimeout
      ∧ cbyte State.reset.cfg [0x80, 0x7F] 0 = State.reset.cfg.chConfig
      ∧ (CfgCmd.all.all fun cmd =>
          State.reset.cfg.cfgCodes.at cmd != cbyte State.reset.cfg [0x80, 0x7F] State.reset.cfg.cfgSelOff)
              = true := by decide

theorem test_witness_DisableTimeoutCompletesTheHandshake :
    State.reset.cfg.valid = true
      ∧ cbyte State.reset.cfg [0x80, 0x04] 0 = State.reset.cfg.chConfig
      ∧ cbyte State.reset.cfg [0x80, 0x04] State.reset.cfg.cfgSelOff
          = State.reset.cfg.cfgCodes.disableTimeout := by decide

theorem test_witness_FeatureAcknowledgments :
    State.reset.cfg.valid = true
      ∧ ([(FeatCmd.getState, (0x00 : Byte)), (.pair, 0x01), (.triggerButtons, 0x04), (.setShipment, 0x08),
            (.setNfcIrConfig, 0x21), (.setNfcIrState, 0x22), (.setHomeLight, 0x38), (.setImuSensitivity, 0x41),
            (.readImu, 0x43), (.getVoltage, 0x50), (.legacyUnknown, 0x33)].all fun row =>
          cbyte State.reset.cfg (featureWord [row.2]) 0 == State.reset.cfg.chFeature
            && cbyte State.reset.cfg (featureWord [row.2]) State.reset.cfg.featSelOff
              == State.reset.cfg.featCodes.at row.1) = true := by decide

theorem test_witness_UnknownFeatureSelectorIsAcknowledged :
    State.reset.cfg.valid = true
      ∧ cbyte State.reset.cfg (featureWord [0x7E]) 0 = State.reset.cfg.chFeature
      ∧ (FeatCmd.all.all fun cmd =>
          State.reset.cfg.featCodes.at cmd != cbyte State.reset.cfg (featureWord [0x7E]) State.reset.cfg.featSelOff)
              = true := by decide

theorem test_witness_SetModeAndSetPlayerLightsStoreTheirByte :
    State.reset.cfg.valid = true
      ∧ cbyte State.reset.cfg (featureWord [0x03, 0x30]) 0 = State.reset.cfg.chFeature
      ∧ cbyte State.reset.cfg (featureWord [0x03, 0x30]) State.reset.cfg.featSelOff = State.reset.cfg.featCodes.setMode
      ∧ cbyte State.reset.cfg (featureWord [0x30, 0xFF]) 0 = State.reset.cfg.chFeature
      ∧ cbyte State.reset.cfg (featureWord [0x30, 0xFF]) State.reset.cfg.featSelOff
          = State.reset.cfg.featCodes.setPlayerLights := by decide

theorem test_witness_GetPlayerLightsEchoesTheId :
    State.reset.cfg.valid = true
      ∧ cbyte State.reset.cfg (featureWord [0x31]) 0 = State.reset.cfg.chFeature
      ∧ cbyte State.reset.cfg (featureWord [0x31]) State.reset.cfg.featSelOff
          = State.reset.cfg.featCodes.getPlayerLights := by decide

theorem test_witness_BooleanCommandsStoreNonzero :
    State.reset.cfg.valid = true
      ∧ cbyte State.reset.cfg (featureWord [0x40, 0x02]) 0 = State.reset.cfg.chFeature
      ∧ cbyte State.reset.cfg (featureWord [0x40, 0x02]) State.reset.cfg.featSelOff
          = State.reset.cfg.featCodes.toggleImu
      ∧ cbyte State.reset.cfg (featureWord [0x48, 0x00]) 0 = State.reset.cfg.chFeature
      ∧ cbyte State.reset.cfg (featureWord [0x48, 0x00]) State.reset.cfg.featSelOff
          = State.reset.cfg.featCodes.enableVibration := by decide

theorem test_witness_DeviceInfoReply :
    State.reset.cfg.valid = true
      ∧ cbyte State.reset.cfg (featureWord [0x02]) 0 = State.reset.cfg.chFeature
      ∧ cbyte State.reset.cfg (featureWord [0x02]) State.reset.cfg.featSelOff
          = State.reset.cfg.featCodes.deviceInfo := by decide

theorem test_witness_SpiReadReply :
    State.reset.cfg.valid = true
      ∧ cbyte State.reset.cfg (featureWord [0x10, 0xFF, 0xFF, 0xFF, 0xFF, 0xFF]) 0 = State.reset.cfg.chFeature
      ∧ cbyte State.reset.cfg (featureWord [0x10, 0xFF, 0xFF, 0xFF, 0xFF, 0xFF]) State.reset.cfg.featSelOff
          = State.reset.cfg.featCodes.spiRead := by decide

theorem test_witness_UnknownChannelIsIgnored :
    cbyte State.reset.cfg [0x02, 0x01] 0 ≠ State.reset.cfg.chConfig
      ∧ cbyte State.reset.cfg [0x02, 0x01] 0 ≠ State.reset.cfg.chFeature := by decide

theorem test_witness_CommandsWriteOnlySessionAndReply :
    Instr.isCommand (.evCmdIn [0x80, 0x04] 0) = true ∧ Instr.isCommand (.featSpiRead 0 0 0) = true := by decide

theorem test_witness_FeatureCommandsAreConfined :
    State.reset.cfg.valid = true
      ∧ cbyte State.reset.cfg (featureWord [0x30, 0x05]) 0 = State.reset.cfg.chFeature := by decide

theorem test_witness_RepliesDependOnlyOnWordAndIdentity :
    State.reset.cfg = readyState.cfg
      ∧ (cbyte State.reset.cfg (featureWord [0x31]) 0 = State.reset.cfg.chConfig
        ∨ cbyte State.reset.cfg (featureWord [0x31]) 0 = State.reset.cfg.chFeature)
      ∧ (after (exec (.evCmdIn (featureWord [0x31]) 1) State.reset)).isSome = true
      ∧ (after (exec (.evCmdIn (featureWord [0x31]) 2) readyState)).isSome = true
      ∧ State.reset.playerId = readyState.playerId ∧ State.reset.idLow = readyState.idLow :=
  ⟨rfl, by decide⟩

theorem test_witness_FlashReadReturnsBlobBytes :
    Params.refcfg.valid = true
      ∧ (Params.refcfg.flashMap.any fun e => e.bank == bankOf 0x000060F0) = true
      ∧ (Params.refcfg.flashMap.all fun e => e.bank != bankOf 0x01006000) = true := by decide

theorem test_witness_BankedReadIsFlatMemoryRead :
    Params.refcfg.valid
        = true ∧ (0x000060F0 : Addr).toNat % 256 + 15 < 256 ∧ ¬ (0x000060F0 : Addr).toNat % 256 + 16 < 256 := by decide

theorem test_witness_DueTickSendsThePendingReply :
    let s := { State.reset with prValid := true, prChan := .feat, prPayload := [0x80, 0x00] }
    s.cfg.sendIntervalMs ≤ ((5 : Time) - s.lastSentT).toNat ∧ s.prValid = true := by decide

theorem test_witness_DueTickSendsAChangedInputReport :
    let r := buildInput Params.refcfg (InputState.neutral Params.refcfg) 9
    let q := { readyState with snapValid := true, snap := r }
    readyState.cfg.sendIntervalMs ≤ ((5 : Time) - readyState.lastSentT).toNat ∧ readyState.prValid = false
      ∧ readyState.ready = true ∧ readyState.snapValid = false
      ∧ q.cfg.sendIntervalMs ≤ ((5 : Time) - q.lastSentT).toNat ∧ q.prValid = false ∧ q.ready = true
      ∧ q.snapValid = true ∧ ∀ i, i < q.cfg.reportLen → i ≠ 1 →
          (buildInput q.cfg q.input q.ctr).getD i 0 = q.snap.getD i 0 := by
  refine ⟨by decide, by decide, by decide, by decide, by decide, by decide, by decide, by decide, ?_⟩
  exact same_iff.1 (same_buildInput Params.refcfg (InputState.neutral Params.refcfg) 0 9)

theorem test_witness_DueTickSendsTheIdentification :
    State.reset.cfg.sendIntervalMs ≤ ((5 : Time) - State.reset.lastSentT).toNat ∧ State.reset.prValid = false
      ∧ State.reset.ready = false ∧ State.reset.initialized = false := by decide

theorem test_witness_TickThatMaySendNothingOnlyWakes :
    ((4 : Time) - State.reset.lastSentT).toNat < State.reset.cfg.sendIntervalMs
      ∧ (let s := { State.reset with initialized := true }
        s.prValid = false ∧ s.ready = false ∧ s.initialized = true) := by decide

theorem test_witness_ReportsLeaveOnlyInDueTicks : State.reset.cfg.valid = true := by decide

theorem test_witness_UnchangedInputIsSentAtMostOnce :
    readyState.ready = true ∧ readyState.prValid = false ∧ ¬ (readyState.snapValid = true)
      ∧ (∃ tk ∈ [((4 : Time), true), (5, false)], readyState.cfg.sendIntervalMs ≤ (tk.1 - readyState.lastSentT).toNat)
      ∧ (let q := { readyState with snapValid := true, snap := buildInput Params.refcfg readyState.input 9 }
        q.ready = true ∧ q.prValid = false ∧ q.snapValid = true
          ∧ same q.cfg.reportLen (buildInput q.cfg q.input q.ctr) q.snap = true) := by decide

theorem test_witness_ReadyIsSetOnlyByDisableTimeout :
    State.reset.ready = false ∧ (after (exec (.cfgDisableTimeout 0) State.reset)).map State.ready = some true
      ∧ (after (exec (.evCmdIn [0x80, 0x04] 0) State.reset)).map State.ready = some true
      ∧ readyState.ready = true ∧ (after (exec .evLinkReset readyState)).map State.ready = some false
      ∧ (after (exec (.evPowerOn ⟨0, 0, 0⟩) readyState)).map State.ready = some false
      ∧ readyState.cfg.sendIntervalMs ≤ ((5 : Time) - readyState.lastSentT).toNat ∧ readyState.prValid = false
      ∧ readyState.snapValid = false ∧ readyState.initialized = true := by decide

theorem test_witness_InitializedIsSetOnlyByIdentification :
    State.reset.initialized = false
      ∧ (after (exec (.evTick 5 true false) State.reset)).map State.initialized = some true
      ∧ State.reset.prValid = false ∧ State.reset.ready = false
      ∧ (after (exec (.evTick 5 true false) State.reset)).map (fun t => reportsOf t.outputs)
          = some [frameReply State.reset .cfg (identPayload State.reset.cfg State.reset.idLow)]
      ∧ readyState.initialized = true ∧ (after (exec .evLinkReset readyState)).map State.initialized = some false
      ∧ (after (exec (.evPowerOn ⟨0, 0, 0⟩) readyState)).map State.initialized = some false
      ∧ State.reset.cfg.sendIntervalMs ≤ ((5 : Time) - State.reset.lastSentT).toNat := by decide

theorem test_witness_DecodeOfEncodeIsTheInstruction :
    Params.refcfg.valid = true ∧ Instr.wf Params.refcfg (.featSpiRead 0xFFFFFFFF 0xFF 0xFFFFFFFF) = true
      ∧ Instr.wf Params.refcfg (.cfgDefault 0xFF 0) = true ∧ Instr.wf Params.refcfg (.cmdIgnored 0xFF 0) = true
      ∧ legacyCfg.valid = true ∧ Instr.wf legacyCfg (.frameLegacy8 yBlock 0) = true
      ∧ offset0Cfg.valid = true ∧ Instr.wf offset0Cfg (.featPair 0) = true := by decide

theorem test_witness_EveryInputWordDecodesWellFormed :
    Params.refcfg.valid = true ∧ ∀ bytes, PortWord.cmdWord [0x80] 0 ≠ .serialOut bytes := by
  refine ⟨by decide, ?_⟩
  intro bytes h
  cases h

theorem test_witness_StepRunsTheDecodedInstruction :
    let s := offered [.serialIn 0x55 [0xAA] 3, .linkReset]
    s.cfg.valid = true ∧ s.inbox = .serialIn 0x55 [0xAA] 3 :: [.linkReset]
      ∧ (decode s.cfg (.serialIn 0x55 [0xAA] 3)).toOption = some (.evByteIn 0x55 3, [.serialIn 0xAA [] 3]) := by decide

theorem test_witness_StepRefusesOnlyBadConfigurations :
    State.reset.cfg.valid = true ∧ State.reset.inbox = []
      ∧ (resetWith { Params.refcfg with fdMinFrame := 10 }).cfg.valid = false
      ∧ (∀ bytes later, (offered [.linkReset]).inbox ≠ .serialOut bytes :: later)
      ∧ (offered [.serialOut []]).cfg.valid = true ∧ (offered [.serialOut []]).inbox = .serialOut [] :: []
      ∧ ∀ r, ([] : List Byte) ≠ rumbleFrameBytes (offered [.serialOut []]).cfg r := by
  refine ⟨by decide, by decide, by decide, ?_, by decide, by decide, ?_⟩
  · intro bytes later h
    cases h
  · intro r h
    cases h

end Sys2Proof.Tests
end

section
/-! What one instruction can do to the registers of 10_state.md, said once over `exec`, and the statements about which
events write InputState, the session registers, `ready` and `initialized`. -/

namespace Sys2Proof.Machine

/-! ## The step of each unit -/

/-- The next state of an instruction, by the unit the instruction belongs to. A command's next state is described by
`exec_command`. -/
inductive UnitStep (s : State) : Instr → State → Prop where
  | command {i : Instr} {t : State} (hcmd : Instr.isCommand i = true) (hexec : exec i s = .next t) : UnitStep s i t
  | serial {i : Instr} (bytes : List Byte) (now : Time) : UnitStep s i (bytesIn bytes now s)
  | rumble {i : Instr} (r : Haptic) : UnitStep s i (emitRumble r s)
  | powerOn {t : State} (draw : IdBytes) (hexec : exec (.evPowerOn draw) s = .next t) : UnitStep s (.evPowerOn draw) t
  | linkReset {t : State} (hexec : exec .evLinkReset s = .next t) : UnitStep s .evLinkReset t
  | tick (now : Time) (txReady suspended : Bool) :
      UnitStep s (.evTick now txReady suspended) (tick now txReady suspended s)

theorem exec_next_inj {i : Instr} {s t u : State} (h : exec i s = .next t) (g : exec i s = .next u) : t = u :=
  Host.Outcome.next.inj (h.symm.trans g)

theorem unitStep_of_exec {i : Instr} {s t : State} (h : exec i s = .next t) : UnitStep s i t := by
  cases i
  case frameLegacy8 fb now =>
    rw [exec_next_inj h (exec_frameLegacy8 fb now s)]
    exact .serial _ now
  case frameLenpfx version fb extra trailer now =>
    rw [exec_next_inj h (exec_frameLenpfx version fb extra trailer now s)]
    exact .serial _ now
  case evByteIn b now =>
    rw [exec_next_inj h (exec_evByteIn b now s)]
    exact .serial [b] now
  case evTick now txReady suspended =>
    rw [exec_next_inj h (exec_evTick now txReady suspended s)]
    exact .tick now txReady suspended
  case rumbleFrame r =>
    rw [exec_next_inj h (u := emitRumble r s) rfl]
    exact .rumble r
  case evRumbleIn r now =>
    rw [exec_next_inj h (u := emitRumble r s) rfl]
    exact .rumble r
  case evPowerOn draw => exact .powerOn draw h
  case evLinkReset => exact .linkReset h
  all_goals exact .command rfl h

/-! ## Commands -/

/-- Settles O38: the ignored word changes nothing, every other command writes the session and queues a reply. -/
theorem commandsWriteOnlySessionAndReply : Obligations.CommandsWriteOnlySessionAndReply := by
  intro i s hcmd
  obtain h | ⟨_, _, _, _, _, _, _, _, h, -, -⟩ := exec_command i s hcmd
  · exact ⟨s, h, rfl⟩
  · exact ⟨_, h, rfl⟩

theorem command_input {i : Instr} {s t : State} (hcmd : Instr.isCommand i = true) (h : exec i s = .next t) :
    t.input = s.input := by
  obtain ⟨u, hu, hframe⟩ := commandsWriteOnlySessionAndReply i s hcmd
  rw [exec_next_inj h hu, hframe]

theorem command_initialized {i : Instr} {s t : State} (hcmd : Instr.isCommand i = true) (h : exec i s = .next t) :
    t.initialized = s.initialized := by
  obtain ⟨u, hu, hframe⟩ := commandsWriteOnlySessionAndReply i s hcmd
  rw [exec_next_inj h hu, hframe]

/-- A command that changes `ready` sets it, and is disable-host-timeout. -/
theorem command_ready {i : Instr} {s t : State} (hcmd : Instr.isCommand i = true) (h : exec i s = .next t) :
    t.ready = s.ready ∨ t.ready = true ∧ isDisableTimeout i s := by
  obtain hs | ⟨_, _, _, _, _, _, _, rdy, hq, -, hrdy⟩ := exec_command i s hcmd
  · rw [exec_next_inj h hs]
    exact .inl rfl
  · rw [exec_next_inj h hq]
    exact hrdy

theorem featureCommand_ne_disableTimeout (p : Params) (c : List Byte) : featureCommand p c ≠ .disableTimeout := by
  rw [featureCommand]
  cases selectFeat p (cbyte p c p.featSelOff) with
  | none => exact HostCommand.noConfusion
  | some cmd => cases cmd <;> exact HostCommand.noConfusion

theorem configCommand_eq_disableTimeout {p : Params} {sel : Byte} (h : configCommand p sel = .disableTimeout) :
    sel = p.cfgCodes.disableTimeout := by
  rw [configCommand] at h
  split at h <;> cases h
  next hsel => exact (selectCfg_some hsel).symm

/-- A disable-host-timeout word stands on the configuration channel, with the code of that command. -/
theorem hostCommand_eq_disableTimeout {p : Params} {c : List Byte} (h : hostCommand p c = .disableTimeout) :
    cbyte p c 0 = p.chConfig ∧ cbyte p c p.cfgSelOff = p.cfgCodes.disableTimeout := by
  rw [hostCommand] at h
  split at h
  next hch => exact ⟨hch, configCommand_eq_disableTimeout h⟩
  next =>
    split at h
    · exact absurd h (featureCommand_ne_disableTimeout p c)
    · cases h

/-! ## InputState -/

/-- From s to t the outputs only grew, and an InputState that differs comes with a FRAME among the new ones. -/
def InputChangesWithFrame (s t : State) : Prop :=
  ∃ driven, t.outputs = s.outputs ++ driven ∧ (t.input = s.input ∨ Output.fdEvt .frame ∈ driven)

theorem InputChangesWithFrame.refl (s : State) : InputChangesWithFrame s s :=
  ⟨[], (List.append_nil _).symm, .inl rfl⟩

theorem InputChangesWithFrame.trans {s t u : State} (h : InputChangesWithFrame s t) (g : InputChangesWithFrame t u) :
    InputChangesWithFrame s u := by
  obtain ⟨d, hout, hin⟩ := h
  obtain ⟨e, gout, gin⟩ := g
  refine ⟨d ++ e, by rw [gout, hout, List.append_assoc], ?_⟩
  rcases gin with gin | gin
  · exact hin.imp gin.trans (List.mem_append_left e)
  · exact .inr (List.mem_append_right d gin)

theorem byteIn_inputChangesWithFrame (b : Byte) (now : Time) (s : State) : InputChangesWithFrame s (byteIn b now s) := by
  rcases byteIn_cases b now s with
    ⟨_, -, -, h⟩ | ⟨-, h⟩ | ⟨_, -, h⟩ | ⟨-, -, -, h⟩ | ⟨-, -, -, h⟩ | ⟨-, -, -, h⟩ <;> rw [h]
  case inr.inr.inr.inr.inr => exact ⟨_, rfl, .inr (List.mem_singleton_self _)⟩
  all_goals exact ⟨_, rfl, .inl rfl⟩

theorem bytesIn_inputChangesWithFrame (bytes : List Byte) (now : Time) (s : State) :
    InputChangesWithFrame s (bytesIn bytes now s) :=
  bytesIn_induct now (fun b t h => h.trans (byteIn_inputChangesWithFrame b now t)) bytes (.refl s)

theorem tick_input (now : Time) (txReady suspended : Bool) (s : State) :
    (tick now txReady suspended s).input = s.input := by
  rcases tick_cases now txReady suspended s with h | ⟨-, -, ⟨-, h⟩ | ⟨-, -, h⟩ | ⟨-, -, -, h⟩⟩ <;> rw [h] <;> rfl

/-- Settles O19: only ByteIn events and PowerOn write InputState, and a ByteIn that does reports FRAME. -/
theorem inputStateChangesOnlyAtFrameOrPowerOn : Obligations.InputStateChangesOnlyAtFrameOrPowerOn := by
  intro i s t h hne
  cases unitStep_of_exec h with
  | command hcmd hexec => exact absurd (command_input hcmd hexec) hne
  | serial bytes now =>
    obtain ⟨driven, hout, hin⟩ := bytesIn_inputChangesWithFrame bytes now s
    rw [hout, List.drop_left]
    exact .inr (hin.resolve_left hne)
  | rumble r => exact absurd rfl hne
  | powerOn draw => exact .inl ⟨draw, rfl⟩
  | linkReset hexec => cases hexec; exact absurd rfl hne
  | tick now txReady suspended => exact absurd (tick_input now txReady suspended s) hne

/-! ## The reports of a Tick -/

@[simp] theorem reportsOf_append_wakeReq (outs : List Output) (on : Bool) :
    reportsOf (outs ++ [.wakeReq on]) = reportsOf outs := by
  simp [reportsOf]

@[simp] theorem reportsOf_tickSend (report : List Byte) (now : Time) (suspended : Bool) (s : State) :
    reportsOf (tickSend report now suspended s).outputs = reportsOf s.outputs ++ [report] := by
  simp [reportsOf, tickSend]

/-! ## The reset events clear the session -/

theorem powerOn_clears {s t : State} {draw : IdBytes} (h : exec (.evPowerOn draw) s = .next t) :
    t.ready = false ∧ t.initialized = false := by
  cases h
  exact ⟨rfl, rfl⟩

theorem linkReset_clears {s t : State} (h : exec .evLinkReset s = .next t) :
    t.ready = false ∧ t.initialized = false := by
  cases h
  exact ⟨rfl, rfl⟩

/-! ## `ready` -/

theorem tick_ready (now : Time) (txReady suspended : Bool) (s : State) :
    (tick now txReady suspended s).ready = s.ready := by
  rcases tick_cases now txReady suspended s with h | ⟨-, -, ⟨-, h⟩ | ⟨-, -, h⟩ | ⟨-, -, -, h⟩⟩ <;> rw [h] <;> rfl

/-- All that can happen to `ready` (10_state.md R32). -/
theorem exec_ready_cases {i : Instr} {s t : State} (h : exec i s = .next t) :
    t.ready = s.ready
    ∨ t.ready = true ∧ isDisableTimeout i s
    ∨ t.ready = false ∧ (i = .evLinkReset ∨ ∃ draw, i = .evPowerOn draw) := by
  cases unitStep_of_exec h with
  | command hcmd hexec => exact (command_ready hcmd hexec).imp_right .inl
  | serial bytes now => exact .inl (bytesIn_same bytes now s).ready
  | rumble r => exact .inl rfl
  | powerOn draw hexec => exact .inr (.inr ⟨(powerOn_clears hexec).1, .inr ⟨draw, rfl⟩⟩)
  | linkReset hexec => exact .inr (.inr ⟨(linkReset_clears hexec).1, .inl rfl⟩)
  | tick now txReady suspended => exact .inl (tick_ready now txReady suspended s)

theorem exec_sets_ready {i : Instr} {s t : State} (h : exec i s = .next t) (h0 : s.ready = false)
    (h1 : t.ready = true) : isDisableTimeout i s := by
  rcases exec_ready_cases h with hkeep | ⟨-, hdis⟩ | ⟨hclear, -⟩
  · simp [h0, h1] at hkeep
  · exact hdis
  · simp [h1] at hclear

theorem exec_clears_ready {i : Instr} {s t : State} (h : exec i s = .next t) (h1 : s.ready = true)
    (h0 : t.ready = false) : i = .evLinkReset ∨ ∃ draw, i = .evPowerOn draw := by
  rcases exec_ready_cases h with hkeep | ⟨hset, -⟩ | ⟨-, hreset⟩
  · simp [h0, h1] at hkeep
  · simp [h0] at hset
  · exact hreset

/-- A due Tick of a ready state sends the input report where no snapshot suppresses it. -/
theorem reportsOf_tick_periodic {s : State} {now : Time} (hdue : s.cfg.sendIntervalMs ≤ (now - s.lastSentT).toNat)
    (hpr : s.prValid = false) (hr : s.ready = true) (hsnap : s.snapValid = false) (suspended : Bool) :
    reportsOf (tick now true suspended s).outputs = reportsOf s.outputs ++ [buildInput s.cfg s.input s.ctr] := by
  rw [tick_periodic hdue hpr hr, hsnap]
  exact reportsOf_tickSend _ now suspended s

theorem reportsOf_tick_quiet {s : State} (hpr : s.prValid = false) (hr : s.ready = false) (hi : s.initialized = true)
    (now : Time) (txReady suspended : Bool) :
    reportsOf (tick now txReady suspended s).outputs = reportsOf s.outputs := by
  rw [tick_quiet hpr hr hi, drive_outputs, reportsOf_append_wakeReq]

/-- Settles O53, from `exec_ready_cases` and what a due Tick sends. -/
theorem readyIsSetOnlyByDisableTimeout : Obligations.ReadyIsSetOnlyByDisableTimeout := by
  refine ⟨rfl, ?sets, fun _ _ _ => exec_clears_ready, ?writes, ?tickReads⟩
  case sets =>
    intro i s t h h0 h1
    refine (exec_sets_ready h h0 h1).imp_right ?_
    rintro ⟨c, now, hi, hc⟩
    exact ⟨c, now, hi, hostCommand_eq_disableTimeout hc⟩
  case writes => exact fun s draw now => ⟨⟨_, rfl, rfl⟩, ⟨_, rfl, rfl⟩, ⟨_, rfl, rfl⟩⟩
  case tickReads =>
    intro s now suspended hdue hpr hsnap hi
    exact ⟨_, _, exec_evTick .., reportsOf_tick_periodic (s := { s with ready := true }) hdue hpr rfl hsnap suspended,
      exec_evTick .., reportsOf_tick_quiet (s := { s with ready := false }) hpr rfl hi now true suspended⟩

/-! ## `initialized` -/

/-- The instruction is a Tick that, with no reply pending and not ready, sends the identification report. -/
def SendsIdentification (i : Instr) (s t : State) : Prop :=
  ∃ now suspended, i = .evTick now true suspended ∧ s.prValid = false ∧ s.ready = false
    ∧ reportsOf t.outputs = reportsOf s.outputs ++ [frameReply s .cfg (identPayload s.cfg s.idLow)]

/-- All a Tick can do to `initialized`: keep it, or set it with the identification report sent. -/
theorem tick_initialized_cases (now : Time) (txReady suspended : Bool) (s : State) :
    (tick now txReady suspended s).initialized = s.initialized
    ∨ (tick now txReady suspended s).initialized = true
      ∧ SendsIdentification (.evTick now txReady suspended) s (tick now txReady suspended s) := by
  rcases tick_cases now txReady suspended s with h | ⟨rfl, -, ⟨-, h⟩ | ⟨-, -, h⟩ | ⟨hpr, hr, -, h⟩⟩ <;> rw [h]
  case inr.inr.inr => exact .inr ⟨rfl, now, suspended, rfl, hpr, hr, reportsOf_tickSend _ now suspended s⟩
  all_goals exact .inl rfl

/-- All that can happen to `initialized` (10_state.md R33). -/
theorem exec_initialized_cases {i : Instr} {s t : State} (h : exec i s = .next t) :
    t.initialized = s.initialized
    ∨ t.initialized = true ∧ SendsIdentification i s t
    ∨ t.initialized = false ∧ (i = .evLinkReset ∨ ∃ draw, i = .evPowerOn draw) := by
  cases unitStep_of_exec h with
  | command hcmd hexec => exact .inl (command_initialized hcmd hexec)
  | serial bytes now => exact .inl (bytesIn_same bytes now s).initialized
  | rumble r => exact .inl rfl
  | powerOn draw hexec => exact .inr (.inr ⟨(powerOn_clears hexec).2, .inr ⟨draw, rfl⟩⟩)
  | linkReset hexec => exact .inr (.inr ⟨(linkReset_clears hexec).2, .inl rfl⟩)
  | tick now txReady suspended => exact (tick_initialized_cases now txReady suspended s).imp_right .inl

theorem exec_sets_initialized {i : Instr} {s t : State} (h : exec i s = .next t) (h0 : s.initialized = false)
    (h1 : t.initialized = true) : SendsIdentification i s t := by
  rcases exec_initialized_cases h with hkeep | ⟨-, hident⟩ | ⟨hclear, -⟩
  · simp [h0, h1] at hkeep
  · exact hident
  · simp [h1] at hclear

theorem exec_clears_initialized {i : Instr} {s t : State} (h : exec i s = .next t) (h1 : s.initialized = true)
    (h0 : t.initialized = false) : i = .evLinkReset ∨ ∃ draw, i = .evPowerOn draw := by
  rcases exec_initialized_cases h with hkeep | ⟨hset, -⟩ | ⟨-, hreset⟩
  · simp [h0, h1] at hkeep
  · simp [h0] at hset
  · exact hreset

/-- Without a reply pending and not ready, the only report a Tick can send is the identification, which sets
`initialized`. -/
theorem initialized_of_tick_sends {s : State} (hpr : s.prValid = false) (hr : s.ready = false) {now : Time}
    {txReady suspended : Bool} {report : List Byte}
    (hsent : reportsOf (tick now txReady suspended s).outputs = reportsOf s.outputs ++ [report]) :
    (tick now txReady suspended s).initialized = true := by
  rcases tick_cases now txReady suspended s with h | ⟨-, -, ⟨hpr', -⟩ | ⟨-, hr', -⟩ | ⟨-, -, -, h⟩⟩
  · simp [h] at hsent
  · simp [hpr] at hpr'
  · simp [hr] at hr'
  · rw [h]

/-- A due Tick of the one-shot identification sends it and sets `initialized`. -/
theorem tick_identify_sends {s : State} {now : Time} (hdue : s.cfg.sendIntervalMs ≤ (now - s.lastSentT).toNat)
    (hpr : s.prValid = false) (hr : s.ready = false) (hi : s.initialized = false) (suspended : Bool) :
    (tick now true suspended s).initialized = true
    ∧ reportsOf (tick now true suspended s).outputs
        = reportsOf s.outputs ++ [frameReply s .cfg (identPayload s.cfg s.idLow)] := by
  rw [tick_identify hdue hpr hr hi, if_pos rfl]
  exact ⟨rfl, reportsOf_tickSend _ now suspended s⟩

/-- Settles O54, from `exec_initialized_cases` and what a due Tick that is not ready sends. -/
theorem initializedIsSetOnlyByIdentification : Obligations.InitializedIsSetOnlyByIdentification := by
  refine ⟨rfl, fun _ _ _ => exec_sets_initialized, ?sends, fun _ _ _ => exec_clears_initialized,
    fun s draw => ⟨⟨_, rfl, rfl⟩, ⟨_, rfl, rfl⟩⟩, ?tickReads⟩
  case sends =>
    intro s t now txReady suspended hpr hr h hsent
    rw [exec_next_inj h (exec_evTick now txReady suspended s)] at hsent ⊢
    exact initialized_of_tick_sends hpr hr hsent
  case tickReads =>
    intro s now suspended hdue hpr hr
    obtain ⟨hset, hsent⟩ := tick_identify_sends (s := { s with initialized := false }) hdue hpr hr rfl suspended
    exact ⟨_, _, exec_evTick .., hset, hsent, exec_evTick ..,
      reportsOf_tick_quiet (s := { s with initialized := true }) hpr hr rfl now true suspended⟩

end Sys2Proof.Machine
end

section
/-! The Virtual Flash read (20_memory.md): an address is its bank and its offset, and reading through the banks is
reading the flat image, cut at the end of the start address's bank. -/

namespace Sys2Proof.Machine

/-! ## Bank and offset -/

theorem bankOf_add_offsetOf (a : Addr) : (bankOf a).toNat + offsetOf a = a.toNat := by
  rw [bankOf_toNat, offsetOf_eq]
  omega

theorem bankOf_aligned (a : Addr) : (bankOf a).toNat % 256 = 0 := by
  rw [bankOf_toNat]
  omega

theorem offsetOf_lt (a : Addr) : offsetOf a < 256 := by
  rw [offsetOf_eq]
  omega

/-- Settles O41. -/
theorem flashReadNeverFails : Obligations.FlashReadNeverFails := fun p a n =>
  ⟨bankOf_add_offsetOf a, bankOf_aligned a, offsetOf_lt a, vfRead_length p a n, rfl⟩

theorem eq_bankOf_iff {bank : Addr} (hbank : bank.toNat % 256 = 0) (a : Addr) :
    bank = bankOf a ↔ bank.toNat ≤ a.toNat ∧ a.toNat < bank.toNat + 256 := by
  rw [← BitVec.toNat_inj, bankOf_toNat]
  omega

/-- Going on inside a bank does not wrap around the 32-bit address space. -/
theorem toNat_add_of_inside {a : Addr} {i : Nat} (hi : offsetOf a + i < 256) :
    (a + BitVec.ofNat 32 i).toNat = a.toNat + i := by
  have hlt := a.isLt
  rw [offsetOf_eq] at hi
  rw [BitVec.toNat_add, BitVec.toNat_ofNat]
  omega

theorem offsetOf_add_of_inside {a : Addr} {i : Nat} (hi : offsetOf a + i < 256) :
    offsetOf (a + BitVec.ofNat 32 i) = offsetOf a + i := by
  rw [offsetOf_eq, toNat_add_of_inside hi]
  rw [offsetOf_eq] at hi ⊢
  omega

theorem bankOf_add_of_inside {a : Addr} {i : Nat} (hi : offsetOf a + i < 256) :
    bankOf (a + BitVec.ofNat 32 i) = bankOf a := by
  have hbank := bankOf_add_offsetOf a
  refine ((eq_bankOf_iff (bankOf_aligned a) _).2 ?_).symm
  rw [toNat_add_of_inside hi]
  omega

/-! ## One bank's bytes -/

theorem blobByte_eq (p : Params) (entry : Option FlashEntry) (k : Nat) :
    blobByte p entry k = (entry.bind (·.bytes[k]?)).getD p.vfFill := by
  cases entry with
  | none => rfl
  | some e =>
    simp only [blobByte, Option.bind_some, List.getD_eq_getElem?_getD]
    split
    · rfl
    · rw [List.getElem?_eq_none (by omega), Option.getD_none]

/-- Past the end of the bank lies no blob's byte. -/
theorem blobByte_past_bank {p : Params} (hp : p.Constraints) (bank : Addr) {k : Nat} (hk : 256 ≤ k) :
    blobByte p (flashLookup p bank) k = p.vfFill := by
  cases hfind : flashLookup p bank with
  | none => rfl
  | some e =>
    obtain ⟨-, hlen⟩ := hp.banksAligned e (List.mem_of_find?_eq_some hfind)
    exact if_neg (by omega)

/-- A byte inside the bank of `a` is the flash's byte at its own address. -/
theorem blobByte_inside (p : Params) {a : Addr} {i : Nat} (hi : offsetOf a + i < 256) :
    blobByte p (flashLookup p (bankOf a)) (offsetOf a + i) = flashByte p (a + BitVec.ofNat 32 i) := by
  rw [flashByte, bankOf_add_of_inside hi, offsetOf_add_of_inside hi]

/-! ## The flat image -/

/-- The banks written one after another over `m`. -/
def loadBanks (fill : Byte) (m : Memory) (banks : List FlashEntry) : Memory :=
  banks.foldl (fun m e => Memory.load fill m e.bank.toNat e.bytes) m

theorem flashImage_eq_loadBanks (p : Params) : flashImage p = loadBanks p.vfFill [] p.flashMap := rfl

theorem loadBanks_cons (fill : Byte) (m : Memory) (e : FlashEntry) (banks : List FlashEntry) :
    loadBanks fill m (e :: banks) = loadBanks fill (Memory.load fill m e.bank.toNat e.bytes) banks := rfl

theorem wf_flashImage (p : Params) : Memory.wf p.vfFill (flashImage p) = true :=
  wf_foldl_load p.vfFill p.flashMap rfl

/-- Writing one bank changes the addresses of its blob alone. -/
theorem read_load_bank {fill : Byte} {m : Memory} (hm : Memory.wf fill m = true) {e : FlashEntry}
    (he : e.bank.toNat % 256 = 0 ∧ e.bytes.length ≤ 256) (a : Addr) :
    Memory.read fill (Memory.load fill m e.bank.toNat e.bytes) a.toNat
      = if e.bank = bankOf a then (e.bytes[offsetOf a]?).getD (Memory.read fill m a.toNat)
        else Memory.read fill m a.toNat := by
  obtain ⟨haligned, hlen⟩ := he
  rw [Memory.read_load hm]
  by_cases hbank : e.bank = bankOf a
  · have hsplit := bankOf_add_offsetOf a
    rw [← hbank] at hsplit
    rw [if_pos hbank, ← hsplit, Nat.add_sub_cancel_left]
    by_cases hin : offsetOf a < e.bytes.length
    · rw [if_pos (by omega), List.getD_eq_getElem _ _ hin, List.getElem?_eq_getElem hin, Option.getD_some]
    · rw [if_neg (by omega), List.getElem?_eq_none (by omega), Option.getD_none]
  · rw [if_neg hbank]
    rw [eq_bankOf_iff haligned] at hbank
    exact if_neg (by omega)

/-- With distinct banks, an address reads from the one bank it lies in, or as before where that bank has no byte
for it. -/
theorem read_loadBanks {fill : Byte} {banks : List FlashEntry}
    (haligned : ∀ e ∈ banks, e.bank.toNat % 256 = 0 ∧ e.bytes.length ≤ 256)
    (hdistinct : (banks.map FlashEntry.bank).Nodup) {m : Memory} (hm : Memory.wf fill m = true) (a : Addr) :
    Memory.read fill (loadBanks fill m banks) a.toNat
      = ((banks.find? (fun e => e.bank == bankOf a)).bind (·.bytes[offsetOf a]?)).getD
          (Memory.read fill m a.toNat) := by
  induction banks generalizing m with
  | nil => rfl
  | cons e banks ih =>
    obtain ⟨he, hrest⟩ := List.forall_mem_cons.1 haligned
    rw [List.map_cons, List.nodup_cons] at hdistinct
    obtain ⟨hnew, hdistinct⟩ := hdistinct
    rw [loadBanks_cons, ih hrest hdistinct (Memory.wf_load _ _ hm), read_load_bank hm he]
    by_cases hbank : e.bank = bankOf a
    · have hnone : banks.find? (fun x => x.bank == bankOf a) = none := by
        rw [← hbank]
        simpa using hnew
      rw [if_pos hbank, hnone, List.find?_cons_of_pos (by simpa using hbank)]
      rfl
    · rw [if_neg hbank, List.find?_cons_of_neg (by simpa using hbank)]

/-- The flat image reads as the flash at every address. -/
theorem read_flashImage {p : Params} (hp : p.Constraints) (a : Addr) :
    Memory.read p.vfFill (flashImage p) a.toNat = flashByte p a := by
  rw [flashImage_eq_loadBanks, read_loadBanks hp.banksAligned hp.banksDistinct rfl, flashByte, blobByte_eq]
  rfl

/-- Settles O43: byte by byte, from `read_flashImage` inside the bank and `blobByte_past_bank` beyond it. -/
theorem bankedReadIsFlatMemoryRead : Obligations.BankedReadIsFlatMemoryRead := by
  intro p a n hvalid
  have hp := (Params.valid_iff p).1 hvalid
  refine ⟨wf_flashImage p, List.map_congr_left fun i _ => ?_⟩
  rw [← offsetOf_eq]
  split
  next hin => rw [blobByte_inside p hin, ← toNat_add_of_inside hin, read_flashImage hp]
  next hout => exact blobByte_past_bank hp _ (by omega)

end Sys2Proof.Machine
end

section
/-! What no event writes: the parameters, the flash in them and the words the host offers; and `ID_LOW`, which PowerOn
alone draws (00_scope.md R9, 20_memory.md R48). -/

namespace Sys2Proof.Machine

theorem exec_completes (i : Instr) (s : State) : ∃ t, exec i s = .next t := by
  cases hcmd : Instr.isCommand i with
  | true =>
    obtain ⟨t, ht, -⟩ := commandsWriteOnlySessionAndReply i s hcmd
    exact ⟨t, ht⟩
  | false => cases i <;> cases hcmd <;> exact ⟨_, rfl⟩

/-- What stays from one PowerOn to the next, whatever happens between. -/
structure SameConstants (s t : State) : Prop where
  cfg : t.cfg = s.cfg
  inbox : t.inbox = s.inbox
  idLow : t.idLow = s.idLow

theorem command_sameConstants {i : Instr} {s t : State} (hcmd : Instr.isCommand i = true) (h : exec i s = .next t) :
    SameConstants s t := by
  obtain ⟨u, hu, hframe⟩ := commandsWriteOnlySessionAndReply i s hcmd
  rw [exec_next_inj h hu, hframe]
  exact ⟨rfl, rfl, rfl⟩

theorem tick_sameConstants (now : Time) (txReady suspended : Bool) (s : State) :
    SameConstants s (tick now txReady suspended s) := by
  rcases tick_cases now txReady suspended s with h | ⟨-, -, ⟨-, h⟩ | ⟨-, -, h⟩ | ⟨-, -, -, h⟩⟩ <;> rw [h] <;>
  exact ⟨rfl, rfl, rfl⟩

/-- Every instruction but PowerOn keeps the constants. -/
theorem exec_sameConstants {i : Instr} {s t : State} (h : exec i s = .next t) (hi : ∀ draw, i ≠ .evPowerOn draw) :
    SameConstants s t := by
  cases unitStep_of_exec h with
  | command hcmd hexec => exact command_sameConstants hcmd hexec
  | serial bytes now =>
    have hsame := bytesIn_same bytes now s
    exact ⟨hsame.cfg, hsame.inbox, hsame.idLow⟩
  | rumble r => exact ⟨rfl, rfl, rfl⟩
  | powerOn draw => exact absurd rfl (hi draw)
  | linkReset hexec => cases hexec; exact ⟨rfl, rfl, rfl⟩
  | tick now txReady suspended => exact tick_sameConstants now txReady suspended s

/-- Settles O55: PowerOn by its meaning, every other instruction by `exec_sameConstants`. -/
theorem parametersAndFlashAreConstant : Obligations.ParametersAndFlashAreConstant := by
  intro i s
  by_cases hpower : ∃ draw, i = .evPowerOn draw
  · obtain ⟨draw, rfl⟩ := hpower
    exact ⟨_, rfl, rfl, fun _ => rfl, rfl, rfl⟩
  · rw [not_exists] at hpower
    obtain ⟨t, ht⟩ := exec_completes i s
    obtain ⟨hcfg, hinbox, hid⟩ := exec_sameConstants ht hpower
    refine ⟨t, ht, hcfg, fun a => by rw [hcfg], hinbox, ?_⟩
    split
    next draw => exact absurd rfl (hpower draw)
    next => exact hid

end Sys2Proof.Machine
end

section
/-! Input frames and rumble frames as the bytes of 30_encoding.md: a whole legacy frame decoded at one time, the rumble
frame with its checksum, and the words the spec writes out. -/

namespace Sys2Proof.Machine

/-! ## The legacy input frame -/

theorem fieldBlock_legacyFrame {p : Params} (hfmt : p.frameFmt = .legacy8) (fb : FieldBlock) :
    fieldBlock p (legacyFrame p fb) = fb := by
  rw [fieldBlock, hfmt]
  rfl

/-- The rest of a frame of known length, taken at the time of its last byte, completes it. -/
theorem bytesIn_toEnd (bs : List Byte) (last : Byte) {now : Time} {s : State} (hs : s.fdState = .syncing)
    (ht : s.fdLastT = now) (he : s.fdExp = some (s.fdCnt + bs.length + 1))
    (hl : s.cfg.frameFmt = .legacy8 ∨ 3 ≤ s.fdCnt) :
    bytesIn (bs ++ [last]) now s = finishFrame last now (appendBytes bs s) := by
  have hbody : ¬ atLength (appendBytes bs s) := by
    rintro ⟨hfmt, hcnt⟩
    rcases hl with hl | hl
    · exact absurd (hl.symm.trans hfmt) (by decide)
    · simp only [appendBytes] at hcnt
      omega
  have hend : (appendBytes bs s).fdExp = some ((appendBytes bs s).fdCnt + 1) := he
  rw [bytesIn_append, bytesIn_inside bs now _ s hs ht he hl (Nat.lt_succ_self _), bytesIn_cons, bytesIn_nil,
    byteIn_now (s := appendBytes bs s) hs ht hbody, if_pos hend]

/-- Settles O12: the sentinel begins a frame of eight bytes, six field bytes are appended, the seventh completes it. -/
theorem legacyFrameIsDecoded : Obligations.LegacyFrameIsDecoded := by
  intro s fb now hfmt hidle
  have hbegun : (beginFrame s.cfg.sentinel now .none s).fdExp = some 8 := if_pos hfmt
  have hrest := bytesIn_toEnd [fb.buttonsLo, fb.buttonsHi, fb.dir, fb.axisLX, fb.axisLY, fb.axisRX] fb.axisRY
    (s := beginFrame s.cfg.sentinel now .none s) rfl rfl hbegun (.inl hfmt)
  have hblock := fieldBlock_legacyFrame hfmt fb
  rw [legacyFrame, fieldBytes] at hblock
  calc exec (.frameLegacy8 fb now) s
      = .next (bytesIn (fieldBytes fb) now (beginFrame s.cfg.sentinel now .none s)) := by
        rw [exec_frameLegacy8, legacyFrame, bytesIn_cons, byteIn_idle hidle, if_pos rfl]
    _ = .next (finishFrame fb.axisRY now (appendBytes _ (beginFrame s.cfg.sentinel now .none s))) :=
        congrArg Host.Outcome.next hrest
    _ = _ := by
        simp [finishFrame, appendBytes, beginFrame, List.replicate_succ, hblock]

/-! ## The rumble frame -/

theorem byteSum_toNat (bs : List Byte) : (byteSum bs).toNat = (bs.map BitVec.toNat).sum % 256 := by
  induction bs with
  | nil => rfl
  | cons b bs ih => simp [byteSum, ih]

/-- Settles O50: the event and the row both drive the frame, whose last byte is `byteSum` of the ten before it. -/
theorem rumbleIsRelayedWithItsChecksum : Obligations.RumbleIsRelayedWithItsChecksum := by
  intro s r now
  refine ⟨emitRumble r s, byteSum (rumbleBody s.cfg r), rfl, rfl, rfl, ?_⟩
  rw [byteSum_toNat]
  simp [rumbleBody, hapticBytes, Nat.add_assoc]

/-! ## Words written out -/

/-- Settles O58: each clause decodes one closed word. -/
theorem specWordsDecode : Obligations.SpecWordsDecode :=
  ⟨rfl, rfl, rfl, rfl, rfl, rfl, rfl, rfl⟩

end Sys2Proof.Machine
end

section
/-! The frame decoder (40_frame_decoder.md): what a byte does in IDLE, which byte completes a frame and what it writes
to InputState, that any other byte touches the decoder alone, and the expansion of an axis byte. -/

namespace Sys2Proof.Machine

/-! ## A byte in IDLE -/

/-- Settles O6: `byteIn_idle`, with the frame length the sentinel sets in each format. -/
theorem idleByteBeginsAFrameOrIsDiscarded : Obligations.IdleByteBeginsAFrameOrIsDiscarded := by
  intro s b now hidle
  rw [exec_evByteIn, byteIn_idle hidle]
  refine congrArg Host.Outcome.next (if_congr Iff.rfl ?_ rfl)
  cases hfmt : s.cfg.frameFmt <;> simp [beginFrame, hfmt, legacyLen]

/-! ## The byte that completes a frame -/

theorem not_atLength_iff {s : State} : ¬ atLength s ↔ s.cfg.frameFmt = .legacy8 ∨ s.fdCnt ≠ 2 := by
  rw [atLength, not_and_or]
  cases s.cfg.frameFmt <;> simp

/-- The field block of a buffer is the seven bytes that stand at its offset. -/
theorem fieldBlock_of_take {p : Params} {buf : List Byte} {fb : FieldBlock}
    (h : (buf.drop (fieldOffset p.frameFmt)).take 7 = fieldBytes fb) : fieldBlock p buf = fb := by
  have hbyte : ∀ k, k < 7 → buf.getD (fieldOffset p.frameFmt + k) 0x00 = (fieldBytes fb).getD k 0x00 := by
    intro k hk
    simp [← h, hk]
  cases fb
  simp only [fieldBlock, FieldBlock.mk.injEq]
  exact ⟨hbyte 0 (by decide), hbyte 1 (by decide), hbyte 2 (by decide), hbyte 3 (by decide), hbyte 4 (by decide),
    hbyte 5 (by decide), hbyte 6 (by decide)⟩

/-- `DecodeFields` with the mask and the axes as the bytes put side by side. -/
theorem decodeFields_eq_append (p : Params) (fb : FieldBlock) :
    decodeFields p fb =
      { btn := buttonsOf p (fb.buttonsHi ++ fb.buttonsLo), dpad := p.dirFlags fb.dir
        lx := fb.axisLX ++ fb.axisLX, ly := fb.axisLY ++ fb.axisLY
        rx := fb.axisRX ++ fb.axisRX, ry := fb.axisRY ++ fb.axisRY } := by
  simp only [decodeFields, buttonMask_eq_append, expand_eq_append]

/-- Settles O10: the byte is no length byte, so it finishes the frame, whose field block the hypothesis gives. -/
theorem lastFrameByteOverwritesInputState : Obligations.LastFrameByteOverwritesInputState := by
  intro s b f0 f1 f2 f3 f4 f5 f6 now hsync hgap hlen hend hfields
  have hblock : fieldBlock s.cfg (s.fdBuf ++ [b]) = ⟨f0, f1, f2, f3, f4, f5, f6⟩ := by
    apply fieldBlock_of_take
    cases hfmt : s.cfg.frameFmt <;> rw [hfmt] at hfields <;> exact hfields
  rw [exec_evByteIn, byteIn_body hsync hgap (not_atLength_iff.2 hlen), if_pos hend, finishFrame, hblock,
    decodeFields_eq_append]

/-! ## A byte that completes no frame -/

/-- Settles O11: of all a ByteIn can do, only finishing a frame writes more than the decoder registers. -/
theorem droppedBytesChangeOnlyTheDecoder : Obligations.DroppedBytesChangeOnlyTheDecoder := by
  intro s b now
  refine ⟨_, exec_evByteIn b now s, ?_⟩
  rcases byteIn_cases b now s with
    ⟨evt, hevt, -, hbegin⟩ | ⟨-, hdiscard⟩ | ⟨evt, hevt, hdrop⟩ | ⟨-, -, -, hlength⟩ | ⟨-, -, -, hbody⟩
      | ⟨-, -, -, hfinish⟩
  · rw [hbegin]
    exact .inr ⟨evt, hevt, rfl⟩
  · rw [hdiscard]
    exact .inr ⟨.discard, by decide, rfl⟩
  · rw [hdrop]
    exact .inr ⟨evt, hevt, rfl⟩
  · rw [hlength]
    exact .inr ⟨.none, by decide, rfl⟩
  · rw [hbody]
    exact .inr ⟨.none, by decide, rfl⟩
  · rw [hfinish]
    exact .inl rfl

/-! ## Axis expansion -/

theorem expand_toNat (v : Byte) : (expand v).toNat = 257 * v.toNat := by
  rw [expand_eq_append, BitVec.toNat_append, ← Nat.shiftLeft_add_eq_or_of_lt v.isLt, Nat.shiftLeft_eq]
  omega

theorem expand_strictMono {v w : Byte} (h : v.toNat < w.toNat) : (expand v).toNat < (expand w).toNat := by
  rw [expand_toNat, expand_toNat]
  omega

/-- Settles O16: the expansion and the axes are the model's definitions; value and order come from `expand_toNat`. -/
theorem axisExpansionIsExact : Obligations.AxisExpansionIsExact :=
  ⟨fun v => ⟨rfl, expand_toNat v⟩, expand_toNat 0x00, expand_toNat 0xFF, rfl, fun _ _ => expand_strictMono,
    fun _ _ => ⟨rfl, rfl, rfl, rfl⟩⟩

end Sys2Proof.Machine
end

section
/-! The report builder (41_report_builder.md): the X axis of a sample as a natural number. -/

namespace Sys2Proof.Machine

/-! ## The scaled X axis -/

theorem min_le_max_of_ordered {c : Calibration} (h : c.ordered = true) : c.min.toNat ≤ c.max.toNat := by
  obtain ⟨hmin, hmax⟩ := (Calibration.ordered_iff c).1 h
  exact hmin.trans hmax

theorem scaleX_toNat (raw : Half) (c : Calibration) :
    (scaleX raw c).toNat = min (max (raw.toNat / 16) c.min.toNat) c.max.toNat := by
  rw [scaleX, clamp_toNat, wireOf_toNat]

theorem scaleX_zero {c : Calibration} (h : c.ordered = true) : scaleX 0x0000 c = c.min := by
  have hle := min_le_max_of_ordered h
  apply BitVec.eq_of_toNat_eq
  calc (scaleX 0x0000 c).toNat = min (max 0 c.min.toNat) c.max.toNat := scaleX_toNat 0x0000 c
    _ = c.min.toNat := by rw [Nat.zero_max, Nat.min_eq_left hle]

/-- The greatest sample lands on 4095, which no 12-bit bound exceeds. -/
theorem scaleX_allOnes (c : Calibration) : scaleX 0xFFFF c = c.max := by
  have hmin := c.min.isLt
  have hmax := c.max.isLt
  apply BitVec.eq_of_toNat_eq
  calc (scaleX 0xFFFF c).toNat = min (max 4095 c.min.toNat) c.max.toNat := scaleX_toNat 0xFFFF c
    _ = c.max.toNat := by omega

theorem scaleX_congr {raw raw' : Half} (c : Calibration) (h : raw.toNat / 16 = raw'.toNat / 16) :
    scaleX raw' c = scaleX raw c := by
  apply BitVec.eq_of_toNat_eq
  rw [scaleX_toNat, scaleX_toNat, h]

/-- Settles O20: the shift is the model's definition; only the value at sample 0 needs the calibration ordered. -/
theorem scaledXAxisIsTheClampedShift : Obligations.ScaledXAxisIsTheClampedShift := by
  intro raw c hord
  exact ⟨rfl, scaleX_toNat raw c, scaleX_zero hord, scaleX_allOnes c, fun _ h => scaleX_congr c h⟩

end Sys2Proof.Machine
end

section
/-! The configuration channel: disable-host-timeout, from its word to the next state (42_config_channel.md R129). -/

namespace Sys2Proof.Machine

/-- The converse of `configCommand_eq_disableTimeout`: distinct codes leave the selector to this command alone. -/
theorem configCommand_disableTimeout {p : Params} (hp : p.Constraints) :
    configCommand p p.cfgCodes.disableTimeout = .disableTimeout := by
  have hsel : selectCfg p p.cfgCodes.disableTimeout = some .disableTimeout := selectCfg_at hp .disableTimeout
  rw [configCommand, hsel]

/-- Settles O29: the event runs the row its selector names, and the row sets `ready` and queues the selector. -/
theorem disableTimeoutCompletesTheHandshake : Obligations.DisableTimeoutCompletesTheHandshake := by
  intro s c now hvalid hch hsel
  have hp := (Params.valid_iff s.cfg).1 hvalid
  have hcmd : hostCommand s.cfg c = .disableTimeout := by
    rw [hostCommand_cfg hch, hsel, configCommand_disableTimeout hp]
  have hevent : exec (.evCmdIn c now) s = exec (.cfgDisableTimeout now) s := by
    rw [exec_evCmdIn, hcmd, HostCommand.toInstr]
  have hrow : exec (.cfgDisableTimeout now) s
      = .next (queueReply .cfg [s.cfg.cfgCodes.disableTimeout] now { s with ready := true }) := rfl
  exact ⟨_, hevent.trans hrow, hrow, rfl⟩

end Sys2Proof.Machine
end

section
/-! The feature channel: from a feature word to the row its selector names, what set-mode and set-player-lights store
(43_feature_channel.md R138, R144), and what no feature command writes (R154). -/

namespace Sys2Proof.Machine

/-- The CmdIn of a feature word is its feature row. -/
theorem exec_evCmdIn_feat {s : State} (hp : s.cfg.Constraints) {c : List Byte}
    (hch : cbyte s.cfg c 0 = s.cfg.chFeature) (now : Time) :
    exec (.evCmdIn c now) s = exec ((featureCommand s.cfg c).toInstr now) s := by
  rw [exec_evCmdIn, hostCommand_feat hp hch]

/-! ## The commands that store a whole byte -/

theorem featureCommand_setMode {p : Params} (hp : p.Constraints) {c : List Byte}
    (hsel : cbyte p c p.featSelOff = p.featCodes.setMode) :
    featureCommand p c = .setMode (cbyte p c (p.featSelOff + 1)) := by
  have hcmd : selectFeat p p.featCodes.setMode = some .setMode := selectFeat_at hp .setMode
  rw [featureCommand, hsel, hcmd]

theorem featureCommand_setPlayerLights {p : Params} (hp : p.Constraints) {c : List Byte}
    (hsel : cbyte p c p.featSelOff = p.featCodes.setPlayerLights) :
    featureCommand p c = .setPlayerLights (cbyte p c (p.featSelOff + 1)) := by
  have hcmd : selectFeat p p.featCodes.setPlayerLights = some .setPlayerLights := selectFeat_at hp .setPlayerLights
  rw [featureCommand, hsel, hcmd]

theorem exec_featSetMode (arg : Byte) (now : Time) (s : State) :
    exec (.featSetMode arg now) s
      = .next (queueReply .feat [s.cfg.featAcks.setMode, s.cfg.featCodes.setMode] now { s with inputMode := arg }) :=
  rfl

theorem exec_featSetPlayerLights (arg : Byte) (now : Time) (s : State) :
    exec (.featSetPlayerLights arg now) s
      = .next (queueReply .feat [s.cfg.featAcks.setPlayerLights, s.cfg.featCodes.setPlayerLights] now
          { s with playerId := arg }) :=
  rfl

/-- Settles O32: each word runs the row its selector names, and the row stores the byte and queues `[ACK, sel]`. -/
theorem setModeAndSetPlayerLightsStoreTheirByte : Obligations.SetModeAndSetPlayerLightsStoreTheirByte := by
  intro s c now hvalid hch
  have hp := (Params.valid_iff s.cfg).1 hvalid
  have hevent := exec_evCmdIn_feat hp hch now
  constructor <;> intro hsel
  · rw [featureCommand_setMode hp hsel] at hevent
    have hrow := exec_featSetMode (cbyte s.cfg c (s.cfg.featSelOff + 1)) now s
    exact ⟨_, hevent.trans hrow, hrow, rfl⟩
  · rw [featureCommand_setPlayerLights hp hsel] at hevent
    have hrow := exec_featSetPlayerLights (cbyte s.cfg c (s.cfg.featSelOff + 1)) now s
    exact ⟨_, hevent.trans hrow, hrow, rfl⟩

/-! ## What no feature command writes -/

/-- `ready` is the one register a command may write and a feature command may not: it takes disable-host-timeout,
which stands on the configuration channel. -/
theorem featureWord_ready {s t : State} (hp : s.cfg.Constraints) {c : List Byte}
    (hch : cbyte s.cfg c 0 = s.cfg.chFeature) {now : Time} (h : exec (.evCmdIn c now) s = .next t) :
    t.ready = s.ready := by
  obtain hready | ⟨-, ⟨_, hrow⟩ | ⟨_, _, hword, hcmd⟩⟩ := command_ready rfl h
  · exact hready
  · cases hrow
  · cases hword
    obtain ⟨hcfg, -⟩ := hostCommand_eq_disableTimeout hcmd
    exact absurd (hcfg.symm.trans hch) hp.channels

/-- Settles O39: the frame of every command, less `ready`. -/
theorem featureCommandsAreConfined : Obligations.FeatureCommandsAreConfined := by
  intro s c now hvalid hch
  obtain ⟨t, ht, hframe⟩ := commandsWriteOnlySessionAndReply (.evCmdIn c now) s rfl
  have hready := featureWord_ready ((Params.valid_iff s.cfg).1 hvalid) hch ht
  rw [hready] at hframe
  exact ⟨t, ht, hframe⟩

end Sys2Proof.Machine
end

section
/-! The report scheduler (44_report_scheduler.md): what a due Tick sends first, the pending reply. -/

namespace Sys2Proof.Machine

/-- Settles O44: EV_TICK is the scheduler's Tick, `tick_reply` says what it does with a reply pending, and the two
answers of the transport are a report sent (`tickSend`) and `wake_req` alone (`drive`). -/
theorem dueTickSendsThePendingReply : Obligations.DueTickSendsThePendingReply := by
  intro s now txReady suspended hdue hpr
  rw [exec_evTick, tick_reply hdue hpr]
  cases txReady with
  | true => rfl
  | false => rfl

end Sys2Proof.Machine
end

section
/-! Exceptions (60_exceptions.md R175): there are none. -/

namespace Sys2Proof.Machine

/-- Settles O51 by `exec_completes`: a command's next state is the one its frame `commandsWriteOnlySessionAndReply`
gives, and every other instruction's arm is `.next` by definition. -/
theorem everyInstructionCompletes : Obligations.EveryInstructionCompletes :=
  exec_completes

end Sys2Proof.Machine
end

section
/-! One step (00_scope.md R6, 60_exceptions.md R177, R186): what it does with a bad configuration, with nothing
offered, with a word that decodes and with one that does not. -/

namespace Sys2Proof.Machine

theorem step_of_bad_configuration {s : State} (hvalid : s.cfg.valid = false) :
    step s = .refused .badConfiguration := by
  simp only [step, hvalid, Bool.false_eq_true, if_false]

theorem step_of_no_word {s : State} (hvalid : s.cfg.valid = true) (hin : s.inbox = []) : step s = .next s := by
  simp only [step, hvalid, if_true, fetchNext, hin]

theorem step_of_decode_ok {s : State} {word : PortWord} {later left : List PortWord} {i : Instr}
    (hvalid : s.cfg.valid = true) (hin : s.inbox = word :: later) (hdec : decode s.cfg word = .ok (i, left)) :
    step s = exec i { s with inbox := left ++ later } := by
  simp only [step, hvalid, if_true, fetchNext, hin, hdec]

theorem step_of_decode_error {s : State} {word : PortWord} {later : List PortWord} {why : DecodeError}
    (hvalid : s.cfg.valid = true) (hin : s.inbox = word :: later) (hdec : decode s.cfg word = .error why) :
    step s = .refused (.undecodable why) := by
  simp only [step, hvalid, if_true, fetchNext, hin, hdec]

/-- Settles O59. -/
theorem stepRunsTheDecodedInstruction : Obligations.StepRunsTheDecodedInstruction :=
  fun _ _ _ _ _ hvalid hin hdec => step_of_decode_ok hvalid hin hdec

/-- A step that goes on either had nothing to take, or ran one instruction on the state with what is left of the
inbox. -/
theorem step_next_cases {s t : State} (h : step s = .next t) :
    t = s ∨ ∃ i inbox, exec i { s with inbox := inbox } = .next t := by
  cases hvalid : s.cfg.valid with
  | false =>
    rw [step_of_bad_configuration hvalid] at h
    cases h
  | true =>
    cases hin : s.inbox with
    | nil =>
      rw [step_of_no_word hvalid hin] at h
      exact .inl (Host.Outcome.next.inj h).symm
    | cons word later =>
      cases hdec : decode s.cfg word with
      | error why =>
        rw [step_of_decode_error hvalid hin hdec] at h
        cases h
      | ok taken =>
        rw [step_of_decode_ok hvalid hin hdec] at h
        exact .inr ⟨taken.1, taken.2 ++ later, h⟩

end Sys2Proof.Machine
end

section
/-! The invariant of SPPB (40_frame_decoder.md R109, 43_feature_channel.md R156, 10_state.md R16, R39,
45_rumble_relay.md R173): it holds at reset, every instruction keeps it, and so does every step. -/

namespace Sys2Proof.Machine

/-! ## The decoder's part -/

/-- What `DecoderInv` says of a decoder in SYNCING. -/
structure FrameInProgress (s : State) : Prop where
  nonempty : 0 < s.fdCnt
  counted : s.fdCnt = s.fdBuf.length
  begun : s.fdBuf.head? = some s.cfg.sentinel
  unknownEnd : s.fdExp = none → s.cfg.frameFmt = .lenPfx ∧ s.fdCnt ≤ 2
  knownEnd : ∀ e, s.fdExp = some e → s.fdCnt < e ∧ e ≤ s.cfg.fdBufCap

/-- In a valid configuration the capacity holds any frame whose end is not yet known. -/
theorem decoderInv_iff_of_syncing {s : State} (hp : s.cfg.Constraints) (hs : s.fdState = .syncing) :
    DecoderInv s ↔ FrameInProgress s := by
  have hidle : s.fdState ≠ .idle := by rw [hs]; decide
  have hmin := hp.minFrame
  have hcap := hp.minLeCap
  constructor
  · intro h
    exact {
      nonempty := Nat.pos_of_ne_zero (fun hzero => hidle (h.idleIffEmpty.2 hzero))
      counted := h.countIsLength
      begun := h.startsWithSentinel hs
      unknownEnd := fun hnone => (h.unknownLength hnone).resolve_left hidle
      knownEnd := fun e he => ⟨h.beforeEnd e hs he, h.endFits e he⟩ }
  · intro h
    have hpos := h.nonempty
    have hwithin : s.fdCnt ≤ s.cfg.fdBufCap := by
      cases hexp : s.fdExp with
      | none =>
        obtain ⟨-, hcnt⟩ := h.unknownEnd hexp
        omega
      | some e =>
        obtain ⟨hlt, hle⟩ := h.knownEnd e hexp
        omega
    exact {
      idleIffEmpty := ⟨fun hi => absurd hi hidle, fun hzero => by omega⟩
      countIsLength := h.counted
      withinCapacity := hwithin
      startsWithSentinel := fun _ => h.begun
      idleExpectsNone := fun hi => absurd hi hidle
      unknownLength := fun hnone => .inr (h.unknownEnd hnone)
      beforeEnd := fun e _ he => (h.knownEnd e he).1
      endFits := fun e he => (h.knownEnd e he).2 }

theorem decoderInv_of_reset {s : State} (hs : s.fdState = .idle) (hbuf : s.fdBuf = []) (hcnt : s.fdCnt = 0)
    (hexp : s.fdExp = none) : DecoderInv s := by
  constructor <;> simp [hs, hbuf, hcnt, hexp]

/-- The decoder's part depends on the decoder registers and the parameters alone. -/
theorem DecoderInv.congr {s t : State} (h : DecoderInv s) (hcfg : t.cfg = s.cfg) (hs : t.fdState = s.fdState)
    (hbuf : t.fdBuf = s.fdBuf) (hcnt : t.fdCnt = s.fdCnt) (hexp : t.fdExp = s.fdExp) : DecoderInv t := by
  obtain ⟨hempty, hcount, hwithin, hsentinel, hnone, hunknown, hend, hfits⟩ := h
  constructor <;> simp only [hcfg, hs, hbuf, hcnt, hexp] <;> assumption

theorem decoderInv_beginFrame {s : State} (hp : s.cfg.Constraints) (now : Time) (evt : FdEvt) :
    DecoderInv (beginFrame s.cfg.sentinel now evt s) := by
  have hmin := hp.minFrame
  have hcap := hp.minLeCap
  refine (decoderInv_iff_of_syncing (s := beginFrame s.cfg.sentinel now evt s) hp rfl).2
    ⟨Nat.one_pos, rfl, rfl, ?unknownEnd, ?knownEnd⟩
  case unknownEnd =>
    intro hnone
    cases hfmt : s.cfg.frameFmt <;> simp [beginFrame, hfmt] at hnone ⊢
  case knownEnd =>
    intro e he
    cases hfmt : s.cfg.frameFmt <;> simp [beginFrame, hfmt, legacyLen] at he ⊢
    omega

/-- Appending a byte to a frame in progress, with the end that is expected from then on. -/
theorem decoderInv_appendByte {s : State} (hp : s.cfg.Constraints) (hs : s.fdState = .syncing) (h : DecoderInv s)
    {exp : Option Nat} (hunknown : exp = none → s.cfg.frameFmt = .lenPfx ∧ s.fdCnt + 1 ≤ 2)
    (hknown : ∀ e, exp = some e → s.fdCnt + 1 < e ∧ e ≤ s.cfg.fdBufCap) (b : Byte) (now : Time) :
    DecoderInv (appendByte b now exp s) := by
  obtain ⟨-, hcount, hbegun, -, -⟩ := (decoderInv_iff_of_syncing hp hs).1 h
  refine (decoderInv_iff_of_syncing (s := appendByte b now exp s) hp hs).2
    ⟨Nat.succ_pos _, ?counted, ?begun, hunknown, hknown⟩
  case counted => simp [appendByte, hcount]
  case begun => simp [appendByte, hbegun]

theorem byteIn_decoderInv {s : State} (hp : s.cfg.Constraints) (h : DecoderInv s) (b : Byte) (now : Time) :
    DecoderInv (byteIn b now s) := by
  have hmin := hp.minFrame
  rcases byteIn_cases b now s with
    ⟨evt, -, rfl, hbegin⟩ | ⟨-, hdiscard⟩ | ⟨evt, -, hdrop⟩ | ⟨hs, ⟨-, hcnt⟩, haccept, hlength⟩
      | ⟨hs, hbody, hnotEnd, happend⟩ | ⟨-, -, -, hfinish⟩
  · rw [hbegin]
    exact decoderInv_beginFrame hp now evt
  · rw [hdiscard]
    exact h.congr rfl rfl rfl rfl rfl
  · rw [hdrop]
    exact decoderInv_of_reset rfl rfl rfl rfl
  · rw [hlength]
    simp only [lengthAccepted, Bool.and_eq_true, decide_eq_true_eq] at haccept
    refine decoderInv_appendByte (exp := some (b.toNat + 4)) hp hs h (fun hnone => nomatch hnone) ?_ b now
    rintro e ⟨⟩
    omega
  · rw [happend]
    obtain ⟨-, -, -, hunknown, hknown⟩ := (decoderInv_iff_of_syncing hp hs).1 h
    refine decoderInv_appendByte hp hs h ?unknown ?known b now
    case unknown =>
      intro hnone
      obtain ⟨hfmt, hle⟩ := hunknown hnone
      have hne : s.fdCnt ≠ 2 := fun hcnt => hbody ⟨hfmt, hcnt⟩
      exact ⟨hfmt, by omega⟩
    case known =>
      intro e he
      obtain ⟨hlt, hfits⟩ := hknown e he
      have hne : e ≠ s.fdCnt + 1 := fun heq => hnotEnd (heq ▸ he)
      omega
  · rw [hfinish]
    exact decoderInv_of_reset rfl rfl rfl rfl

/-! ## The whole invariant -/

/-- Settles O4. -/
theorem resetMeetsTheInvariant : Obligations.ResetMeetsTheInvariant where
  cfgValid := by decide
  decoder := decoderInv_of_reset rfl rfl rfl rfl
  pendingFits := Nat.zero_le _
  snapWhole := fun hsnap => nomatch hsnap
  outputsOk := fun _ hmem => nomatch hmem

/-- A state whose every checked register is the old one, with well-formed drives added to the outputs. -/
theorem Inv.congr {s t : State} (h : Inv s) (hcfg : t.cfg = s.cfg) (hdec : DecoderInv t)
    (hchan : t.prChan = s.prChan) (hpayload : t.prPayload = s.prPayload)
    (hvalid : t.snapValid = true → s.snapValid = true) (hsnap : t.snap = s.snap) {driven : List Output}
    (houtputs : t.outputs = s.outputs ++ driven) (hdriven : ∀ o ∈ driven, OutputOk s.cfg o) : Inv t where
  cfgValid := hcfg ▸ h.cfgValid
  decoder := hdec
  pendingFits := by
    rw [hcfg, hchan, hpayload]
    exact h.pendingFits
  snapWhole := by
    rw [hcfg, hsnap]
    exact fun hv => h.snapWhole (hvalid hv)
  outputsOk := by
    rw [hcfg, houtputs]
    intro o ho
    exact (List.mem_append.1 ho).elim (h.outputsOk o) (hdriven o)

theorem byteIn_drives (b : Byte) (now : Time) (s : State) :
    ∃ evt, (byteIn b now s).outputs = s.outputs ++ [.fdEvt evt] := by
  rcases byteIn_cases b now s with
    ⟨_, -, -, h⟩ | ⟨-, h⟩ | ⟨_, -, h⟩ | ⟨-, -, -, h⟩ | ⟨-, -, -, h⟩ | ⟨-, -, -, h⟩ <;> rw [h] <;> exact ⟨_, rfl⟩

theorem byteIn_inv {s : State} (h : Inv s) (b : Byte) (now : Time) : Inv (byteIn b now s) := by
  have hsame := byteIn_same b now s
  obtain ⟨evt, hout⟩ := byteIn_drives b now s
  refine h.congr hsame.cfg (byteIn_decoderInv ((Params.valid_iff s.cfg).1 h.cfgValid) h.decoder b now) hsame.prChan
    hsame.prPayload (fun hv => hsame.snapValid ▸ hv) hsame.snap hout ?_
  simp [OutputOk]

theorem command_inv {i : Instr} {s t : State} (h : Inv s) (hcmd : Instr.isCommand i = true)
    (hexec : exec i s = .next t) : Inv t := by
  obtain hs | ⟨_, _, _, _, _, _, _, _, hq, hfits, -⟩ := exec_command i s hcmd
  · rw [exec_next_inj hexec hs]
    exact h
  · rw [exec_next_inj hexec hq]
    exact ⟨h.cfgValid, h.decoder.congr rfl rfl rfl rfl rfl, hfits, h.snapWhole, h.outputsOk⟩

theorem emitRumble_inv {s : State} (h : Inv s) (r : Haptic) : Inv (emitRumble r s) := by
  refine h.congr rfl (h.decoder.congr rfl rfl rfl rfl rfl) rfl rfl id rfl rfl ?_
  have hframe : IsRumbleFrame (rumbleFrameBytes s.cfg r) := ⟨rumbleBody s.cfg r, rfl, rfl⟩
  simpa [OutputOk] using hframe

theorem powerOn_inv {s t : State} {draw : IdBytes} (h : Inv s) (hexec : exec (.evPowerOn draw) s = .next t) :
    Inv t := by
  cases hexec
  exact h.congr rfl (decoderInv_of_reset rfl rfl rfl rfl) rfl rfl (fun hv => nomatch hv) rfl
    (List.append_nil _).symm (fun _ hmem => nomatch hmem)

theorem linkReset_inv {s t : State} (h : Inv s) (hexec : exec .evLinkReset s = .next t) : Inv t := by
  cases hexec
  exact h.congr rfl (h.decoder.congr rfl rfl rfl rfl rfl) rfl rfl (fun hv => nomatch hv) rfl
    (List.append_nil _).symm (fun _ hmem => nomatch hmem)

/-- Sending a whole report keeps the invariant. -/
theorem tickSend_inv {s : State} (h : Inv s) {report : List Byte} (hlen : report.length = s.cfg.reportLen)
    (now : Time) (suspended : Bool) : Inv (tickSend report now suspended s) := by
  refine h.congr rfl (h.decoder.congr rfl rfl rfl rfl rfl) rfl rfl id rfl rfl ?_
  simpa [OutputOk] using hlen

theorem buildInput_eq {p : Params} (hp : p.Constraints) (is : InputState) (k : Byte) :
    buildInput p is k = inputHead p is k ++ List.replicate (p.reportLen - 12) 0 := by
  have hlen := hp.spiRead
  rw [buildInput, fillReport_of_fits (by rw [inputHead_length]; omega), inputHead_length]

theorem buildInput_head {p : Params} (hp : p.Constraints) (is : InputState) (k : Byte) :
    (buildInput p is k).head? = some p.ridInput := by
  rw [buildInput_eq hp]
  rfl

theorem tick_inv {s : State} (h : Inv s) (now : Time) (txReady suspended : Bool) :
    Inv (tick now txReady suspended s) := by
  have hp := (Params.valid_iff s.cfg).1 h.cfgValid
  rcases tick_cases now txReady suspended s with
    hwake | ⟨-, -, ⟨-, hreply⟩ | ⟨-, -, hinput⟩ | ⟨-, -, -, hident⟩⟩
  · rw [hwake]
    refine h.congr rfl (h.decoder.congr rfl rfl rfl rfl rfl) rfl rfl id rfl rfl ?_
    simp [OutputOk]
  · rw [hreply]
    have hsent := tickSend_inv h (frameReply_length s s.prChan s.prPayload) now suspended
    exact ⟨hsent.cfgValid, hsent.decoder.congr rfl rfl rfl rfl rfl, hsent.pendingFits, hsent.snapWhole, hsent.outputsOk⟩
  · rw [hinput]
    have hsent := tickSend_inv h (buildInput_length s.cfg s.input s.ctr) now suspended
    exact ⟨hsent.cfgValid, hsent.decoder.congr rfl rfl rfl rfl rfl, hsent.pendingFits,
      fun _ => ⟨buildInput_length s.cfg s.input s.ctr, buildInput_head hp s.input s.ctr⟩, hsent.outputsOk⟩
  · rw [hident]
    have hsent := tickSend_inv h (frameReply_length s .cfg (identPayload s.cfg s.idLow)) now suspended
    exact ⟨hsent.cfgValid, hsent.decoder.congr rfl rfl rfl rfl rfl, hsent.pendingFits, hsent.snapWhole, hsent.outputsOk⟩

/-- Every instruction keeps the invariant. -/
theorem exec_inv {i : Instr} {s t : State} (h : Inv s) (hexec : exec i s = .next t) : Inv t := by
  cases unitStep_of_exec hexec with
  | command hcmd hrow => exact command_inv h hcmd hrow
  | serial bytes now => exact bytesIn_induct (P := Inv) now (fun b _ hs => byteIn_inv hs b now) bytes h
  | rumble r => exact emitRumble_inv h r
  | powerOn draw hpower => exact powerOn_inv h hpower
  | linkReset hreset => exact linkReset_inv h hreset
  | tick now txReady suspended => exact tick_inv h now txReady suspended

/-- What the host offers is no part of the invariant. -/
theorem Inv.withInbox {s : State} (h : Inv s) (inbox : List PortWord) : Inv { s with inbox := inbox } :=
  ⟨h.cfgValid, h.decoder.congr rfl rfl rfl rfl rfl, h.pendingFits, h.snapWhole, h.outputsOk⟩

/-- Settles O5: a step that takes nothing changes nothing, and every instruction keeps the invariant. -/
theorem stepKeepsTheInvariant : Obligations.StepKeepsTheInvariant := by
  intro s t h hstep
  obtain rfl | ⟨i, inbox, hexec⟩ := step_next_cases hstep
  · exact h
  · exact exec_inv (h.withInbox inbox) hexec

end Sys2Proof.Machine
end

section
/-! Which row a command word runs (30_encoding.md R86 to R89): each named command's row, the row of a word whose
selector is that command's code, and the default rows. -/

namespace Sys2Proof

/-- The row of a configuration command. -/
def CfgCmd.row : CfgCmd → HostCommand
  | .identify => .identify
  | .handshake => .handshake
  | .baud => .baud
  | .disableTimeout => .disableTimeout
  | .enableTimeout => .enableTimeout

/-- The row of a feature command, `arg k` being the k-th byte after the selector. -/
def FeatCmd.row (arg : Nat → Byte) : FeatCmd → HostCommand
  | .getState => .getState
  | .pair => .pair
  | .deviceInfo => .deviceInfo
  | .setMode => .setMode (arg 1)
  | .triggerButtons => .triggerButtons
  | .setShipment => .setShipment
  | .spiRead => .spiRead (Machine.addrOfBytes (arg 1) (arg 2) (arg 3) (arg 4)) (arg 5)
  | .setNfcIrConfig => .setNfcIrConfig
  | .setNfcIrState => .setNfcIrState
  | .setPlayerLights => .setPlayerLights (arg 1)
  | .getPlayerLights => .getPlayerLights
  | .setHomeLight => .setHomeLight
  | .toggleImu => .toggleImu (arg 1)
  | .setImuSensitivity => .setImuSensitivity
  | .enableVibration => .enableVibration (arg 1)
  | .readImu => .readImu
  | .getVoltage => .getVoltage
  | .legacyUnknown => .legacyUnknown

theorem CfgCmd.wf_row (p : Params) (cmd : CfgCmd) (now : Time) : (cmd.row.toInstr now).wf p = cfgRowFits p cmd := by
  cases cmd <;> rfl

theorem FeatCmd.wf_row (p : Params) (arg : Nat → Byte) (cmd : FeatCmd) (now : Time) :
    ((cmd.row arg).toInstr now).wf p = featRowFits p cmd := by
  cases cmd <;> rfl

end Sys2Proof

namespace Sys2Proof.Machine

theorem configCommand_eq (p : Params) (sel : Byte) :
    configCommand p sel = (selectCfg p sel).elim (.cfgDefault sel) CfgCmd.row := by
  rw [configCommand]
  cases selectCfg p sel with
  | none => rfl
  | some cmd => cases cmd <;> rfl

theorem featureCommand_eq (p : Params) (c : List Byte) :
    featureCommand p c = (selectFeat p (cbyte p c p.featSelOff)).elim (.featDefault (cbyte p c p.featSelOff))
      (FeatCmd.row fun k => cbyte p c (p.featSelOff + k)) := by
  rw [featureCommand]
  cases selectFeat p (cbyte p c p.featSelOff) with
  | none => rfl
  | some cmd => cases cmd <;> rfl

theorem configCommand_at {p : Params} (hp : p.Constraints) (cmd : CfgCmd) :
    configCommand p (p.cfgCodes.at cmd) = cmd.row := by
  rw [configCommand_eq, selectCfg_at hp, Option.elim_some]

theorem configCommand_default {p : Params} {sel : Byte} (h : ∀ cmd, p.cfgCodes.at cmd ≠ sel) :
    configCommand p sel = .cfgDefault sel := by
  rw [configCommand_eq, selectCfg_none.2 h, Option.elim_none]

theorem featureCommand_at {p : Params} (hp : p.Constraints) {c : List Byte} {cmd : FeatCmd}
    (hsel : cbyte p c p.featSelOff = p.featCodes.at cmd) :
    featureCommand p c = cmd.row fun k => cbyte p c (p.featSelOff + k) := by
  rw [featureCommand_eq, hsel, selectFeat_at hp, Option.elim_some]

theorem featureCommand_default {p : Params} {c : List Byte}
    (h : ∀ cmd, p.featCodes.at cmd ≠ cbyte p c p.featSelOff) :
    featureCommand p c = .featDefault (cbyte p c p.featSelOff) := by
  rw [featureCommand_eq, selectFeat_none.2 h, Option.elim_none]

/-- The row of a host command, as an instruction, runs the command's rule. -/
theorem exec_toInstr (cmd : HostCommand) (now : Time) (s : State) :
    exec (cmd.toInstr now) s = runHostCommand cmd now s := by
  cases cmd <;> rfl

end Sys2Proof.Machine
end

section
/-! Decoding (30_encoding.md R67 to R91): the encoding of a well-formed instruction decodes to it, every word of an
input port decodes to a well-formed instruction, and a serial read is its bytes in order. -/

namespace Sys2Proof.Machine

/-! ## Command words -/

/-- A configuration word asks for the command of its selector. -/
theorem hostCommand_cfgWord {p : Params} (hp : p.Constraints) {sel : Byte}
    (hfit : selectorFits p.cfgSelOff p.chConfig sel = true) :
    hostCommand p (cfgWord p sel) = configCommand p sel := by
  have hsel : cbyte p (cfgWord p sel) p.cfgSelOff = sel :=
    cbyte_commandWord_at (off := p.cfgSelOff) (k := 0) (args := []) hp.cfgOff
  have hch : cbyte p (cfgWord p sel) 0 = p.chConfig := cbyte_commandWord_channel hp.cfgOff hfit
  rw [hostCommand_cfg hch, hsel]

/-- The bytes of a feature word from its selector on: what it was built of, then zeros. -/
theorem cbyte_featWord {p : Params} (hp : p.Constraints) (sel : Byte) {args : List Byte} (hargs : args.length ≤ 5)
    (k : Nat) : cbyte p (featWord p sel args) (p.featSelOff + k) = (sel :: args).getD k 0x00 := by
  have hoff := hp.featOff
  by_cases hk : p.featSelOff + k < p.cmdLenMax
  · exact cbyte_commandWord_at hk
  · have hpast : (sel :: args).length ≤ k := by
      rw [List.length_cons]
      omega
    rw [cbyte, if_neg hk, List.getD_eq_default _ _ hpast]

theorem hostCommand_featWord {p : Params} (hp : p.Constraints) {sel : Byte} {args : List Byte}
    (hfit : selectorFits p.featSelOff p.chFeature sel = true) :
    hostCommand p (featWord p sel args) = featureCommand p (featWord p sel args) := by
  have hoff := hp.featOff
  exact hostCommand_feat hp (cbyte_commandWord_channel (by omega) hfit)

theorem decode_encodeCfg {p : Params} (hp : p.Constraints) {cmd : CfgCmd} (hfit : cfgRowFits p cmd = true)
    (now : Time) : decode p (encodeCfg p cmd now) = .ok (cmd.row.toInstr now, []) := by
  rw [encodeCfg, decode, hostCommand_cfgWord hp hfit, configCommand_at hp]

theorem decode_encodeFeat {p : Params} (hp : p.Constraints) {cmd : FeatCmd} (hfit : featRowFits p cmd = true)
    {args : List Byte} (hargs : args.length ≤ 5) (now : Time) :
    decode p (encodeFeat p cmd args now)
      = .ok ((cmd.row fun k => (p.featCodes.at cmd :: args).getD k 0x00).toInstr now, []) := by
  have hbytes := cbyte_featWord hp (p.featCodes.at cmd) hargs
  rw [encodeFeat, decode, hostCommand_featWord hp hfit, featureCommand_at hp (hbytes 0), funext hbytes]

/-- At offset 0 the selector is the channel id byte itself. -/
theorem selectorFits_of_channel {p : Params} {c : List Byte} {channel : Byte} (hch : cbyte p c 0 = channel)
    (off : Nat) : selectorFits off channel (cbyte p c off) = true := by
  cases off with
  | zero => simp [selectorFits, hch]
  | succ n => rfl

theorem configCommand_wf {p : Params} {c : List Byte} (hch : cbyte p c 0 = p.chConfig) (now : Time) :
    ((configCommand p (cbyte p c p.cfgSelOff)).toInstr now).wf p = true := by
  have hfit := selectorFits_of_channel hch p.cfgSelOff
  rw [configCommand_eq]
  cases hsel : selectCfg p (cbyte p c p.cfgSelOff) with
  | none => simp [HostCommand.toInstr, Instr.wf, hfit, hsel]
  | some cmd => rwa [Option.elim_some, CfgCmd.wf_row, cfgRowFits, selectCfg_some hsel]

theorem featureCommand_wf {p : Params} {c : List Byte} (hch : cbyte p c 0 = p.chFeature) (now : Time) :
    ((featureCommand p c).toInstr now).wf p = true := by
  have hfit := selectorFits_of_channel hch p.featSelOff
  rw [featureCommand_eq]
  cases hsel : selectFeat p (cbyte p c p.featSelOff) with
  | none => simp [HostCommand.toInstr, Instr.wf, hfit, hsel]
  | some cmd => rwa [Option.elim_some, FeatCmd.wf_row, featRowFits, selectFeat_some hsel]

theorem hostCommand_wf (p : Params) (c : List Byte) (now : Time) :
    ((hostCommand p c).toInstr now).wf p = true := by
  rw [hostCommand]
  split
  next hcfg => exact configCommand_wf hcfg now
  next hcfg =>
    split
    next hfeat => exact featureCommand_wf hfeat now
    next hfeat => simp [HostCommand.toInstr, Instr.wf, hcfg, hfeat]

/-! ## Serial reads -/

theorem frameAfterSentinel_legacy {p : Params} (hfmt : p.frameFmt = .legacy8) (fb : FieldBlock) (now : Time)
    (rest : List Byte) :
    frameAfterSentinel p now (fieldBytes fb ++ rest) = some (.frameLegacy8 fb now, rest) := by
  unfold frameAfterSentinel
  rw [hfmt]
  rfl

/-- The length byte of a frame that fits the buffer is its length. -/
theorem lengthByte_toNat {n : Nat} (h : n + lenpfxOverhead ≤ 259) : (BitVec.ofNat 8 n).toNat = n := by
  rw [lenpfxOverhead] at h
  rw [BitVec.toNat_ofNat]
  omega

theorem frameAfterSentinel_lenpfx {p : Params} (hp : p.Constraints) (hfmt : p.frameFmt = .lenPfx) {extra : List Byte}
    (hmin : p.fdMinFrame ≤ 7 + extra.length + lenpfxOverhead) (hcap : 7 + extra.length + lenpfxOverhead ≤ p.fdBufCap)
    (version : Byte) (fb : FieldBlock) (trailer : Byte) (now : Time) (rest : List Byte) :
    frameAfterSentinel p now (lenpfxTail version fb extra trailer ++ rest)
      = some (.frameLenpfx version fb extra trailer now, rest) := by
  have hlen := lengthByte_toNat (hcap.trans hp.capLe)
  unfold frameAfterSentinel
  rw [hfmt]
  simp [lenpfxTail, fieldBytes, hlen, hmin, hcap]

/-- A payload length, the payload after its field block and the trailer are the tail of a length-prefixed frame. -/
theorem lenpfxTail_of_drop {len trailer : Byte} {tail rest : List Byte} (h7 : 7 ≤ len.toNat)
    (hdrop : tail.drop (len.toNat - 7) = trailer :: rest) (version : Byte) (fb : FieldBlock) :
    7 + (tail.take (len.toNat - 7)).length = len.toNat
      ∧ version :: len :: (fieldBytes fb ++ tail)
          = lenpfxTail version fb (tail.take (len.toNat - 7)) trailer ++ rest := by
  have hlong := congrArg List.length hdrop
  rw [List.length_drop, List.length_cons] at hlong
  have hlen : 7 + (tail.take (len.toNat - 7)).length = len.toNat := by
    rw [List.length_take]
    omega
  have htail : tail.take (len.toNat - 7) ++ trailer :: rest = tail := by
    rw [← hdrop, List.take_append_drop]
  refine ⟨hlen, ?_⟩
  rw [lenpfxTail, hlen, BitVec.ofNat_toNat, BitVec.setWidth_eq]
  simp [htail]

/-- A frame found at the head of a serial read is one of the configuration's format, and the bytes it takes are its
encoding. -/
theorem frameAfterSentinel_cases {p : Params} {now : Time} {more rest : List Byte} {i : Instr}
    (h : frameAfterSentinel p now more = some (i, rest)) :
    (∃ fb, p.frameFmt = .legacy8 ∧ i = .frameLegacy8 fb now ∧ more = fieldBytes fb ++ rest)
    ∨ ∃ version fb extra trailer, p.frameFmt = .lenPfx
        ∧ p.fdMinFrame ≤ 7 + extra.length + lenpfxOverhead ∧ 7 + extra.length + lenpfxOverhead ≤ p.fdBufCap
        ∧ i = .frameLenpfx version fb extra trailer now ∧ more = lenpfxTail version fb extra trailer ++ rest := by
  unfold frameAfterSentinel at h
  split at h
  next hfmt =>
    split at h
    · cases h
      exact .inl ⟨_, hfmt, rfl, rfl⟩
    · cases h
  next hfmt =>
    split at h
    next version len f0 f1 f2 f3 f4 f5 f6 tail =>
      simp only at h
      split at h
      next haccept =>
        obtain ⟨hmin, hcap, h7⟩ := haccept
        split at h
        next trailer left hdrop =>
          cases h
          obtain ⟨hlen, hbytes⟩ := lenpfxTail_of_drop h7 hdrop version ⟨f0, f1, f2, f3, f4, f5, f6⟩
          exact .inr ⟨_, _, _, _, hfmt, by rwa [hlen], by rwa [hlen], rfl, hbytes⟩
        next => cases h
      next => cases h
    next => cases h

/-- A serial read gives the ByteIn of its first byte, or the frame that begins with it. -/
theorem decodeSerial_cases (p : Params) (b : Byte) (more : List Byte) (now : Time) :
    decodeSerial p b more now = (.evByteIn b now, serialRest now more)
    ∨ b = p.sentinel ∧ ∃ i rest, frameAfterSentinel p now more = some (i, rest)
        ∧ decodeSerial p b more now = (i, serialRest now rest) := by
  rw [decodeSerial]
  split
  next hb =>
    cases hframe : frameAfterSentinel p now more with
    | none => exact .inl rfl
    | some taken => exact .inr ⟨hb, taken.1, taken.2, rfl, rfl⟩
  next => exact .inl rfl

theorem decodeSerial_frame {p : Params} {now : Time} {more rest : List Byte} {i : Instr}
    (h : frameAfterSentinel p now more = some (i, rest)) :
    decodeSerial p p.sentinel more now = (i, serialRest now rest) := by
  rw [decodeSerial, if_pos rfl, h]

theorem decodeSerial_single (p : Params) (b : Byte) (now : Time) :
    decodeSerial p b [] now = (.evByteIn b now, []) := by
  have hnone : frameAfterSentinel p now [] = none := by
    unfold frameAfterSentinel
    cases p.frameFmt <;> rfl
  rw [decodeSerial, hnone]
  exact ite_self _

theorem decodeSerial_wf (p : Params) (b : Byte) (more : List Byte) (now : Time) :
    (decodeSerial p b more now).1.wf p = true := by
  obtain hbyte | ⟨-, i, rest, hframe, hdec⟩ := decodeSerial_cases p b more now
  · rw [hbyte]
    rfl
  · rw [hdec]
    obtain ⟨fb, hfmt, rfl, -⟩ | ⟨version, fb, extra, trailer, hfmt, hmin, hcap, rfl, -⟩ :=
      frameAfterSentinel_cases hframe
    · simp [Instr.wf, hfmt]
    · simp [Instr.wf, hfmt, hmin, hcap]

/-! ## Rumble frames -/

theorem decodeRumble_frame (p : Params) (r : Haptic) :
    decodeRumble p (rumbleFrameBytes p r) = .ok (.rumbleFrame r) := by
  simp [rumbleFrameBytes, rumbleBody, hapticBytes, decodeRumble]

theorem eq_rumbleFrameBytes_of_decodeRumble {p : Params} {bytes : List Byte} {i : Instr}
    (h : decodeRumble p bytes = .ok i) : ∃ r, bytes = rumbleFrameBytes p r := by
  unfold decodeRumble at h
  split at h
  next hdr typ r0 r1 r2 r3 r4 r5 r6 r7 sum =>
    simp only at h
    split at h
    next => cases h
    next hhead =>
      split at h
      next => cases h
      next hsum =>
        rw [not_or, not_not, not_not] at hhead
        obtain ⟨rfl, rfl⟩ := hhead
        rw [not_not] at hsum
        exact ⟨⟨r0, r1, r2, r3, r4, r5, r6, r7⟩, by rw [hsum]; rfl⟩
  next => cases h

/-! ## The two ways round -/

/-- Settles O56, port by port: command words by their channel and selector, frames by their bytes, events as they
stand. -/
theorem decodeOfEncodeIsTheInstruction : Obligations.DecodeOfEncodeIsTheInstruction := by
  intro p i hvalid hwf
  have hp := (Params.valid_iff p).1 hvalid
  cases i with
  | cfgIdentify now | cfgHandshake now | cfgBaud now | cfgDisableTimeout now | cfgEnableTimeout now =>
    exact decode_encodeCfg hp hwf now
  | cfgDefault sel now =>
    obtain ⟨hfit, hnone⟩ := Bool.and_eq_true_iff.1 hwf
    rw [encode, decode, hostCommand_cfgWord hp hfit, configCommand_eq, Option.isNone_iff_eq_none.1 hnone]
    rfl
  | featGetState now | featPair now | featDeviceInfo now | featTriggerButtons now | featSetShipment now
  | featSetNfcIrConfig now | featSetNfcIrState now | featGetPlayerLights now | featSetHomeLight now
  | featSetImuSensitivity now | featReadImu now | featGetVoltage now | featLegacyUnknown now =>
    exact decode_encodeFeat hp hwf (args := []) (Nat.zero_le 5) now
  | featSetMode arg now | featSetPlayerLights arg now | featToggleImu arg now | featEnableVibration arg now =>
    exact decode_encodeFeat hp hwf (args := [arg]) (by simp) now
  | featSpiRead addr size now =>
    have hrow := decode_encodeFeat hp (cmd := .spiRead) hwf (args := addrBytes addr ++ [size]) (Nat.le_refl 5) now
    have haddr := addrOfBytes_addrBytes addr
    calc decode p (encode p (.featSpiRead addr size now))
        = .ok (.featSpiRead (addrOfBytes (addrByte addr 0) (addrByte addr 1) (addrByte addr 2) (addrByte addr 3))
            size now, []) := hrow
      _ = .ok (.featSpiRead addr size now, []) := by rw [haddr]
  | featDefault sel now =>
    obtain ⟨hfit, hnone⟩ := Bool.and_eq_true_iff.1 hwf
    have hsel : cbyte p (featWord p sel []) p.featSelOff = sel := cbyte_featWord hp sel (args := []) (Nat.zero_le 5) 0
    rw [encode, decode, hostCommand_featWord hp hfit, featureCommand_eq, hsel, Option.isNone_iff_eq_none.1 hnone]
    rfl
  | cmdIgnored channel now =>
    obtain ⟨hcfg, hfeat⟩ := Bool.and_eq_true_iff.1 hwf
    have hoff := hp.cfgOff
    have hbyte : cbyte p [channel] 0 = channel := if_pos (by omega)
    rw [bne_iff_ne, ← hbyte] at hcfg hfeat
    rw [encode, decode, hostCommand_ignored hcfg hfeat, hbyte]
    rfl
  | frameLegacy8 fb now =>
    have hframe := frameAfterSentinel_legacy (beq_iff_eq.1 hwf) fb now []
    rw [List.append_nil] at hframe
    exact congrArg Except.ok (decodeSerial_frame hframe)
  | frameLenpfx version fb extra trailer now =>
    simp only [Instr.wf, Bool.and_eq_true, beq_iff_eq, decide_eq_true_eq] at hwf
    obtain ⟨⟨hfmt, hmin⟩, hcap⟩ := hwf
    have hframe := frameAfterSentinel_lenpfx hp hfmt hmin hcap version fb trailer now []
    rw [List.append_nil] at hframe
    exact congrArg Except.ok (decodeSerial_frame hframe)
  | rumbleFrame r =>
    rw [encode, decode, decodeRumble_frame]
    rfl
  | evByteIn b now => exact congrArg Except.ok (decodeSerial_single p b now)
  | evPowerOn _ | evLinkReset | evCmdIn _ _ | evTick _ _ _ | evRumbleIn _ _ => rfl

/-- Settles O57: command words by `hostCommand_wf`, serial reads by `decodeSerial_wf`, events as they stand. -/
theorem everyInputWordDecodesWellFormed : Obligations.EveryInputWordDecodesWellFormed := by
  intro p w _ hin
  cases w with
  | serialIn b more now => exact ⟨_, _, rfl, decodeSerial_wf p b more now⟩
  | cmdWord c now => exact ⟨_, _, rfl, hostCommand_wf p c now⟩
  | serialOut bytes => exact absurd rfl (hin bytes)
  | powerOn _ | linkReset | cmdIn _ _ | tick _ _ _ | rumbleIn _ _ => exact ⟨_, _, rfl, rfl⟩

/-! ## Frame rows and their bytes -/

/-- Settles O14: both rows are `bytesIn` of the frame, and so are the events. -/
theorem frameRowsAreTheirByteEvents : Obligations.FrameRowsAreTheirByteEvents :=
  ⟨fun s fb now => ⟨_, exec_frameLegacy8 fb now s, execAll_byteEvents _ now s⟩,
    fun s version trailer fb extra now =>
      ⟨_, exec_frameLenpfx version fb extra trailer now s, execAll_byteEvents _ now s⟩⟩

/-- Settles O15: the read gives its first byte, or a frame whose bytes are the head of the read. -/
theorem serialReadIsItsBytesInOrder : Obligations.SerialReadIsItsBytesInOrder := by
  intro s b more now
  obtain hbyte | ⟨rfl, i, rest, hframe, hdec⟩ := decodeSerial_cases s.cfg b more now
  · exact ⟨.evByteIn b now, [b], more, congrArg Except.ok hbyte, rfl, List.cons_ne_nil _ _,
      (execAll_byteEvents [b] now s).symm⟩
  · obtain ⟨fb, -, rfl, hbytes⟩ | ⟨version, fb, extra, trailer, -, -, -, rfl, hbytes⟩ :=
      frameAfterSentinel_cases hframe
    · exact ⟨_, legacyFrame s.cfg fb, rest, congrArg Except.ok hdec, congrArg (s.cfg.sentinel :: ·) hbytes,
        List.cons_ne_nil _ _, (execAll_byteEvents _ now s).symm⟩
    · exact ⟨_, lenpfxFrame s.cfg version fb extra trailer, rest, congrArg Except.ok hdec,
        congrArg (s.cfg.sentinel :: ·) hbytes, List.cons_ne_nil _ _, (execAll_byteEvents _ now s).symm⟩

/-! ## CmdIn -/

theorem cbyte_eq (p : Params) (c : List Byte) (i : Nat) :
    cbyte p c i = if i < min c.length p.cmdLenMax then c.getD i 0 else 0 := by
  rw [cbyte]
  by_cases hlen : i < c.length
  · exact if_congr (by omega) rfl rfl
  · rw [List.getD_eq_default _ _ (by omega), ite_self, ite_self]

/-- Settles O26. -/
theorem commandEventRunsTheRowOfItsKey : Obligations.CommandEventRunsTheRowOfItsKey :=
  ⟨cbyte_eq, fun s c now => ⟨_, rfl, exec_evCmdIn c now s⟩⟩

end Sys2Proof.Machine
end

section
/-! What a step refuses (60_exceptions.md R177, R186): bad configurations alone, and on the model's output-frame port
what is no rumble frame. -/

namespace Sys2Proof.Machine

/-- Every word of an input port gives a next state: it decodes, and what it decodes to completes. -/
theorem step_completes {s : State} (hvalid : s.cfg.valid = true)
    (hport : ∀ bytes later, s.inbox ≠ .serialOut bytes :: later) : ∃ t, step s = .next t := by
  cases hin : s.inbox with
  | nil => exact ⟨s, step_of_no_word hvalid hin⟩
  | cons word later =>
    have hword : ∀ bytes, word ≠ .serialOut bytes := fun bytes hout => hport bytes later (hout ▸ hin)
    obtain ⟨i, left, hdec, -⟩ := everyInputWordDecodesWellFormed s.cfg word hvalid hword
    obtain ⟨t, ht⟩ := exec_completes i { s with inbox := left ++ later }
    exact ⟨t, (step_of_decode_ok hvalid hin hdec).trans ht⟩

/-- Settles O60, a clause for each of the four ways a step begins. -/
theorem stepRefusesOnlyBadConfigurations : Obligations.StepRefusesOnlyBadConfigurations := by
  refine ⟨fun _ => step_of_no_word, fun _ => step_of_bad_configuration, fun _ => step_completes, ?_⟩
  intro s bytes later hvalid hin hno
  cases hdec : decodeRumble s.cfg bytes with
  | error why =>
    exact ⟨why, step_of_decode_error hvalid hin (by rw [decode, hdec]; rfl)⟩
  | ok i =>
    obtain ⟨r, hr⟩ := eq_rumbleFrameBytes_of_decodeRumble hdec
    exact absurd hr (hno r)

end Sys2Proof.Machine
end

section
/-! The frame decoder in SYNCING (40_frame_decoder.md R97, R99, R100): a stalled frame, the length byte, a byte inside
a frame, and a whole length-prefixed frame at one time. -/

namespace Sys2Proof.Machine

/-- Settles O7: `byteIn_late`, with the frame length the sentinel sets in each format. -/
theorem stalledFrameIsDropped : Obligations.StalledFrameIsDropped := by
  intro s b now hsync hlate
  rw [exec_evByteIn, byteIn_late hsync hlate]
  refine congrArg Host.Outcome.next (if_congr Iff.rfl ?_ rfl)
  cases hfmt : s.cfg.frameFmt <;> simp [beginFrame, hfmt, legacyLen]

theorem lengthAccepted_iff {p : Params} {total : Nat} :
    lengthAccepted p total = true ↔ ¬ (p.fdBufCap < total ∨ total < p.fdMinFrame) := by
  simp only [lengthAccepted, Bool.and_eq_true, decide_eq_true_eq]
  omega

/-- Settles O8: `byteIn_length`, the acceptance of a length turned into its two bounds. -/
theorem lengthByteIsChecked : Obligations.LengthByteIsChecked := by
  intro s b now _ hfmt hsync hcnt hgap
  rw [exec_evByteIn, byteIn_length hsync hgap ⟨hfmt, hcnt⟩]
  by_cases hbad : s.cfg.fdBufCap < b.toNat + 4 ∨ b.toNat + 4 < s.cfg.fdMinFrame
  · rw [if_neg (fun haccept => lengthAccepted_iff.1 haccept hbad), if_pos hbad, dropFrame]
  · rw [if_pos (lengthAccepted_iff.2 hbad), if_neg hbad, appendByte, hcnt]

/-- Settles O9: a byte that is no length byte and does not reach the expected end is appended. -/
theorem frameByteIsAppended : Obligations.FrameByteIsAppended := by
  intro s b now hsync hgap hlen hend
  rw [exec_evByteIn, byteIn_body hsync hgap (not_atLength_iff.2 hlen), if_neg hend, appendByte]

/-! ## A whole length-prefixed frame -/

/-- The decoder after the sentinel, the version and an accepted length L of a length-prefixed frame. -/
def afterLength (version len : Byte) (now : Time) (s : State) : State :=
  { s with fdState := .syncing, fdBuf := [s.cfg.sentinel, version, len], fdCnt := 3
           fdExp := some (len.toNat + 4), fdLastT := now
           outputs := s.outputs ++ List.replicate 3 (.fdEvt .none) }

theorem bytesIn_afterLength {s : State} (hfmt : s.cfg.frameFmt = .lenPfx) (hidle : s.fdState = .idle) {len : Byte}
    (haccept : lengthAccepted s.cfg (len.toNat + 4) = true) (version : Byte) (now : Time) :
    bytesIn [s.cfg.sentinel, version, len] now s = afterLength version len now s := by
  have hbegin : byteIn s.cfg.sentinel now s = beginFrame s.cfg.sentinel now .none s := by
    rw [byteIn_idle hidle, if_pos rfl]
  have hexp : (beginFrame s.cfg.sentinel now .none s).fdExp = none := by simp [beginFrame, hfmt]
  have hbody : ¬ atLength (beginFrame s.cfg.sentinel now .none s) :=
    fun hat => absurd (show 1 = 2 from hat.2) (by decide)
  have hversion : byteIn version now (beginFrame s.cfg.sentinel now .none s)
      = appendByte version now none (beginFrame s.cfg.sentinel now .none s) := by
    rw [byteIn_now (s := beginFrame _ now _ _) (now := now) rfl rfl hbody, hexp, if_neg (by simp)]
  rw [bytesIn_cons, bytesIn_cons, bytesIn_cons, bytesIn_nil, hbegin, hversion,
    byteIn_length (s := appendByte version now none (beginFrame s.cfg.sentinel now .none s)) (now := now) rfl
      (inTime_of_now rfl) ⟨hfmt, rfl⟩]
  exact (if_pos haccept).trans (by simp [appendByte, beginFrame, afterLength])

/-- The payload follows the length, and the trailer completes the frame. -/
theorem bytesIn_lenpfx {s : State} (hfmt : s.cfg.frameFmt = .lenPfx) (hidle : s.fdState = .idle) {len : Byte}
    {payload : List Byte} (hlen : len.toNat = payload.length) (haccept : lengthAccepted s.cfg (len.toNat + 4) = true)
    (version trailer : Byte) (now : Time) :
    bytesIn ([s.cfg.sentinel, version, len] ++ (payload ++ [trailer])) now s
      = finishFrame trailer now (appendBytes payload (afterLength version len now s)) := by
  have hend : len.toNat + 4 = 3 + payload.length + 1 := by omega
  have hexp : (afterLength version len now s).fdExp = some (3 + payload.length + 1) := congrArg some hend
  rw [bytesIn_append, bytesIn_afterLength hfmt hidle haccept]
  exact bytesIn_toEnd payload trailer (s := afterLength version len now s) rfl rfl hexp (.inr (Nat.le_refl 3))

theorem fieldBlock_lenpfx {p : Params} (hfmt : p.frameFmt = .lenPfx) (sentinel version len : Byte) (fb : FieldBlock)
    (extra : List Byte) (trailer : Byte) :
    fieldBlock p ([sentinel, version, len] ++ (fieldBytes fb ++ extra) ++ [trailer]) = fb := by
  rw [fieldBlock, hfmt]
  rfl

/-- Settles O13: the payload of `bytesIn_lenpfx` is the field block and the further bytes, whose number is the length
byte. -/
theorem lengthPrefixedFrameIsDecoded : Obligations.LengthPrefixedFrameIsDecoded := by
  intro s version trailer fb extra now hvalid hfmt hidle hmin hcap
  have hcapLe := ((Params.valid_iff s.cfg).1 hvalid).capLe
  have hlen : (BitVec.ofNat 8 (7 + extra.length)).toNat = 7 + extra.length :=
    lengthByte_toNat (by rw [lenpfxOverhead]; omega)
  have hpayload : (fieldBytes fb ++ extra).length = 7 + extra.length := by
    rw [List.length_append]
    rfl
  have haccept : lengthAccepted s.cfg ((BitVec.ofNat 8 (7 + extra.length)).toNat + 4) = true := by
    rw [lengthAccepted_iff, hlen]
    omega
  have hevents : s.outputs ++ List.replicate 3 (.fdEvt .none) ++ List.replicate (7 + extra.length) (.fdEvt .none)
      = s.outputs ++ List.replicate (extra.length + 10) (.fdEvt .none) := by
    rw [List.append_assoc, List.replicate_append_replicate, ← Nat.add_assoc, Nat.add_comm extra.length]
  have hbytes := bytesIn_lenpfx hfmt hidle (hlen.trans hpayload.symm) haccept version trailer now
  calc exec (.frameLenpfx version fb extra trailer now) s
      = .next (finishFrame trailer now (appendBytes (fieldBytes fb ++ extra) (afterLength version _ now s))) :=
        (exec_frameLenpfx version fb extra trailer now s).trans (congrArg Host.Outcome.next hbytes)
    _ = _ := by
        simp only [finishFrame, appendBytes, afterLength, fieldBlock_lenpfx hfmt, hpayload, hevents]

end Sys2Proof.Machine
end

section
/-! The button mask and the report builder (40_frame_decoder.md R104, 41_report_builder.md R111 to R116,
44_report_scheduler.md R164). -/

namespace Sys2Proof.Machine

/-! ## The button mask -/

@[simp] theorem Buttons.get_ofNames (f : Button → Bool) (name : Button) : (Buttons.ofNames f).get name = f name := by
  cases name <;> rfl

theorem Buttons.ofNames_congr {f g : Button → Bool} (h : ∀ name, f name = g name) :
    Buttons.ofNames f = Buttons.ofNames g :=
  congrArg Buttons.ofNames (funext h)

/-- With distinct names in `BTN_MAP`, the name at place k is found there. -/
theorem buttonsOf_get {p : Params} (hp : p.Constraints) (mask : Half) {k : Nat} {name : Button}
    (hk : p.btnMap[k]? = some name) : (buttonsOf p mask).get name = mask.getLsbD k := by
  obtain ⟨hlt, rfl⟩ := List.getElem?_eq_some_iff.1 hk
  have hplace : p.btnMap.idxOf p.btnMap[k] = k := hp.btnNodup.idxOf_getElem k hlt
  have h14 : k < 14 := hp.btnLength ▸ hlt
  rw [buttonsOf, Buttons.get_ofNames, hplace, if_pos h14]

theorem buttonsOf_congr (p : Params) {mask mask' : Half} (h : ∀ k, k < 14 → mask.getLsbD k = mask'.getLsbD k) :
    buttonsOf p mask = buttonsOf p mask' := by
  refine Buttons.ofNames_congr fun name => ?_
  split
  next hk => exact h _ hk
  next => rfl

theorem buttonMask_getLsbD (fb : FieldBlock) {k : Nat} (hk : k < 8) :
    (buttonMask fb).getLsbD k = fb.buttonsLo.getLsbD k ∧ (buttonMask fb).getLsbD (k + 8) = fb.buttonsHi.getLsbD k := by
  rw [buttonMask_eq_append, BitVec.getLsbD_append, BitVec.getLsbD_append, if_pos hk, if_neg (by omega),
    Nat.add_sub_cancel]
  exact ⟨rfl, rfl⟩

/-- Settles O17. -/
theorem buttonMaskBitsAreTheMappedButtons : Obligations.ButtonMaskBitsAreTheMappedButtons :=
  ⟨fun p mask hvalid => ⟨fun _ _ hk => buttonsOf_get ((Params.valid_iff p).1 hvalid) mask hk,
      fun _ h => buttonsOf_congr p h⟩,
    fun fb _ hk => buttonMask_getLsbD fb hk⟩

/-! ## The direction code -/

/-- Settles O18: the eight codes by evaluation; a greater code is none of them. -/
theorem referenceDirectionCodes : Obligations.ReferenceDirectionCodes := by
  refine ⟨rfl, rfl, rfl, rfl, rfl, rfl, rfl, rfl, rfl, fun code hcode => ?_⟩
  have hnone : refDirMap.find? (fun e => e.code == code) = none := by
    rw [List.find?_eq_none]
    intro e he heq
    have hle : ∀ e ∈ refDirMap, e.code.toNat ≤ 8 := by decide
    have hcode : e.code.toNat ≤ 8 := hle e he
    rw [beq_iff_eq.1 heq] at hcode
    omega
  simp only [Params.dirFlags, Params.refcfg, hnone]

/-! ## Scaling and packing -/

theorem scaleY_toNat (raw : Half) (c : Calibration) :
    (scaleY raw c).toNat = min (max (4095 - raw.toNat / 16) c.min.toNat) c.max.toNat := by
  rw [scaleY, clamp_toNat, flip_toNat]

/-- Settles O21: both axes are clamps, and a clamp between ordered bounds lies between them. -/
theorem scaledAxesLieInTheirRange : Obligations.ScaledAxesLieInTheirRange := by
  intro raw c hord
  have hle := min_le_max_of_ordered hord
  have hx := scaleX_toNat raw c
  have hy := scaleY_toNat raw c
  refine ⟨hy, ?_, ?_, ?_, ?_⟩ <;> omega

/-- Two nibbles put together by shift and or are the byte of both. -/
theorem nibbles_toNat (high low : BitVec 4) :
    (high.zeroExtend 8 <<< 4 ||| low.zeroExtend 8).toNat = 16 * high.toNat + low.toNat := by
  have happend : high.zeroExtend 8 <<< 4 ||| low.zeroExtend 8 = high ++ low := by
    ext i hi
    grind
  rw [happend, BitVec.toNat_append, ← Nat.shiftLeft_add_eq_or_of_lt low.isLt, Nat.shiftLeft_eq]
  omega

/-- Settles O22: the middle byte holds the low nibble of y above the high nibble of x. -/
theorem packedStickHoldsBothValues : Obligations.PackedStickHoldsBothValues := by
  intro x y
  refine ⟨_, _, _, rfl, ?_⟩
  have hx := x.isLt
  have hy := y.isLt
  rw [nibbles_toNat]
  simp only [BitVec.truncate_eq_setWidth, BitVec.toNat_setWidth, BitVec.toNat_ushiftRight, Nat.shiftRight_eq_div_pow]
  omega

/-! ## Button bytes -/

theorem flagBit_getElem (flag : Bool) {k i : Nat} (hk : k < 8) (hi : i < 8) :
    (flagBit flag k)[i] = (flag && decide (i = k)) := by
  cases flag with
  | false => simp [flagBit]
  | true =>
    have hbit : ∀ k < 8, ∀ i, (h : i < 8) → (flagBit true k)[i] = decide (i = k) := by decide
    rw [hbit k hk i hi, Bool.true_and]

/-- Settles O23: each byte is the or of its flags' bits, and bit i of flag k's bit is the flag exactly at i = k. -/
theorem buttonBytesHoldEachFlagOnce : Obligations.ButtonBytesHoldEachFlagOnce := by
  intro t d
  have hrange : List.range 8 = [0, 1, 2, 3, 4, 5, 6, 7] := rfl
  rw [hrange]
  refine ⟨?_, ?_, ?_⟩
  · simp [buttonByte3, flagBit_getElem]
  · simp [buttonByte4, flagBit_getElem]
  · simp [buttonByte5, flagBit_getElem]

/-! ## Whole reports -/

/-- Settles O24: the counter is byte 1 of the head, which comes before the zeros. -/
theorem inputReportLayout : Obligations.InputReportLayout := by
  intro p is k hvalid
  have hbuild := buildInput_eq ((Params.valid_iff p).1 hvalid) is
  refine ⟨hbuild k, fun k' => ?_⟩
  rw [hbuild k, hbuild k']
  rfl

/-- Settles O25: a payload that fits is followed by zeros; the input section has 11 bytes. -/
theorem replyFramesHoldTheirPayload : Obligations.ReplyFramesHoldTheirPayload := by
  intro s payload hvalid
  refine ⟨fun hfits => ?cfg, fun hfits => ?feat⟩
  case cfg =>
    rw [frameReply, fillReport_of_fits (by rwa [List.length_cons]), List.length_cons, Nat.sub_sub, Nat.add_comm 1]
  case feat =>
    have hsection := inputSection_length ((Params.valid_iff s.cfg).1 hvalid) s.input
    have hlen : (s.cfg.ridFeatReply :: s.ctr :: (inputSection s.cfg s.input ++ payload)).length
        = payload.length + 13 := by
      simp only [List.length_cons, List.length_append, hsection]
      omega
    rw [frameReply, fillReport_of_fits (by rwa [hlen]), hlen, Nat.sub_sub, Nat.add_comm 13]
    rfl

end Sys2Proof.Machine
end

section
/-! What a flash read returns: blob bytes inside a mapped bank, the fill byte elsewhere (20_memory.md R53, R55). -/

namespace Sys2Proof.Machine

/-- Reading on from an offset of a bank's entry gives the rest of its blob, then the fill byte. -/
theorem map_blobByte_some (p : Params) (e : FlashEntry) (off n : Nat) :
    (List.range n).map (fun i => blobByte p (some e) (off + i))
      = (e.bytes.drop off).take n ++ List.replicate (n - (e.bytes.length - off)) p.vfFill := by
  apply List.ext_getElem
  · simp only [List.length_map, List.length_range, List.length_append, List.length_take, List.length_drop,
      List.length_replicate]
    omega
  · intro i hi _
    have hn : i < n := by simpa using hi
    by_cases hin : off + i < e.bytes.length
    · rw [List.getElem_append_left (by simp; omega)]
      simp [blobByte_eq, hin]
    · rw [List.getElem_append_right (by simp; omega)]
      simp [blobByte_eq, hin]

/-- Settles O42: the look-up finds the bank's one entry, or none. -/
theorem flashReadReturnsBlobBytes : Obligations.FlashReadReturnsBlobBytes := by
  intro p a n hvalid
  refine ⟨fun e he hbank => ?mapped, fun habsent => ?absent⟩
  case mapped =>
    have hfind := flashLookup_of_mem ((Params.valid_iff p).1 hvalid) he
    rw [vfRead, ← hbank, hfind]
    exact map_blobByte_some p e (offsetOf a) n
  case absent =>
    rw [vfRead, flashLookup_eq_none habsent]
    simp [blobByte]

end Sys2Proof.Machine
end

section
/-! The reset values and the reset events (10_state.md R44, 70_reset_and_hazards.md R195 to R197). -/

namespace Sys2Proof.Machine

/-- Settles O1, by evaluation of the closed reset state. -/
theorem resetLeavesTheSpecsValues : Obligations.ResetLeavesTheSpecsValues := by
  unfold Obligations.ResetLeavesTheSpecsValues
  decide

/-- Settles O2: the statement is the event's meaning, its updates written out. -/
theorem powerOnWritesTheResetValues : Obligations.PowerOnWritesTheResetValues :=
  fun _ _ => rfl

/-- Settles O3: the statement is the event's meaning, its updates written out. -/
theorem linkResetClearsTheSession : Obligations.LinkResetClearsTheSession :=
  fun _ => rfl

end Sys2Proof.Machine
end

section
/-! What each command word does (42_config_channel.md R124 to R131, 43_feature_channel.md R134 to R153): the word is
taken to its row by channel and selector, and the row's rule says the rest. -/

namespace Sys2Proof.Machine

/-! ## From the word to the row -/

theorem exec_evCmdIn_cfg {s : State} {c : List Byte} (hch : cbyte s.cfg c 0 = s.cfg.chConfig) (now : Time) :
    exec (.evCmdIn c now) s = exec ((configCommand s.cfg (cbyte s.cfg c s.cfg.cfgSelOff)).toInstr now) s := by
  rw [exec_evCmdIn, hostCommand_cfg hch]

theorem exec_evCmdIn_cfgCode {s : State} (hp : s.cfg.Constraints) {c : List Byte} {cmd : CfgCmd}
    (hch : cbyte s.cfg c 0 = s.cfg.chConfig) (hsel : cbyte s.cfg c s.cfg.cfgSelOff = s.cfg.cfgCodes.at cmd)
    (now : Time) : exec (.evCmdIn c now) s = exec (cmd.row.toInstr now) s := by
  rw [exec_evCmdIn_cfg hch, hsel, configCommand_at hp]

theorem exec_evCmdIn_featCode {s : State} (hp : s.cfg.Constraints) {c : List Byte} {cmd : FeatCmd}
    (hch : cbyte s.cfg c 0 = s.cfg.chFeature) (hsel : cbyte s.cfg c s.cfg.featSelOff = s.cfg.featCodes.at cmd)
    (now : Time) :
    exec (.evCmdIn c now) s = exec ((cmd.row fun k => cbyte s.cfg c (s.cfg.featSelOff + k)).toInstr now) s := by
  rw [exec_evCmdIn_feat hp hch, featureCommand_at hp hsel]

/-- Settles O37. -/
theorem unknownChannelIsIgnored : Obligations.UnknownChannelIsIgnored := by
  refine ⟨fun s c now hcfg hfeat => ?_, fun _ _ _ => rfl⟩
  rw [exec_evCmdIn, hostCommand_ignored hcfg hfeat]
  rfl

/-! ## The configuration channel -/

/-- Settles O27. -/
theorem identifyReply : Obligations.IdentifyReply := by
  intro s c now hvalid hch hsel
  have hevent := exec_evCmdIn_cfgCode (cmd := .identify) ((Params.valid_iff s.cfg).1 hvalid) hch hsel now
  exact ⟨_, hevent, rfl, rfl⟩

/-- Settles O28: three named commands by their codes, and the default row where no code matches. -/
theorem configurationAcknowledgments : Obligations.ConfigurationAcknowledgments := by
  intro s c now hvalid hch
  have hp := (Params.valid_iff s.cfg).1 hvalid
  refine ⟨fun hsel => ?_, fun hsel => ?_, fun hsel => ?_, fun hno => ?_⟩
  · exact ⟨_, exec_evCmdIn_cfgCode (cmd := .handshake) hp hch hsel now, rfl, rfl⟩
  · exact ⟨_, exec_evCmdIn_cfgCode (cmd := .baud) hp hch hsel now, rfl, rfl⟩
  · exact ⟨_, exec_evCmdIn_cfgCode (cmd := .enableTimeout) hp hch hsel now, rfl, rfl⟩
  · have hevent := exec_evCmdIn_cfg hch now
    rw [configCommand_default hno] at hevent
    exact ⟨_, hevent, rfl, rfl⟩

/-! ## The feature channel -/

/-- Settles O30: each of the eleven rows is the generic acknowledgment, and the row of its own command. -/
theorem featureAcknowledgments : Obligations.FeatureAcknowledgments := by
  intro s now row hrow
  simp only [List.mem_cons, List.not_mem_nil, or_false] at hrow
  rcases hrow with rfl | rfl | rfl | rfl | rfl | rfl | rfl | rfl | rfl | rfl | rfl <;>
  exact ⟨rfl, fun c hvalid hch hsel => exec_evCmdIn_featCode ((Params.valid_iff s.cfg).1 hvalid) hch hsel now⟩

/-- Settles O31. -/
theorem unknownFeatureSelectorIsAcknowledged : Obligations.UnknownFeatureSelectorIsAcknowledged := by
  intro s c now hvalid hch hno
  have hevent := exec_evCmdIn_feat ((Params.valid_iff s.cfg).1 hvalid) hch now
  rw [featureCommand_default hno] at hevent
  exact ⟨_, hevent, rfl, rfl⟩

/-- Settles O33: the echo after a set is the two rows run one after the other. -/
theorem getPlayerLightsEchoesTheId : Obligations.GetPlayerLightsEchoesTheId := by
  refine ⟨fun s c now hvalid hch hsel => ?word, fun s arg now now' => ⟨_, rfl, rfl⟩⟩
  have hevent := exec_evCmdIn_featCode (cmd := .getPlayerLights) ((Params.valid_iff s.cfg).1 hvalid) hch hsel now
  exact ⟨_, hevent, rfl, rfl⟩

theorem argFlag_eq (arg : Byte) : argFlag arg = decide (arg ≠ 0x00) := by
  rw [argFlag, bne, decide_not]
  rfl

/-- Settles O34: the rows store `argFlag` of their byte. -/
theorem booleanCommandsStoreNonzero : Obligations.BooleanCommandsStoreNonzero := by
  intro s c now hvalid hch
  have hp := (Params.valid_iff s.cfg).1 hvalid
  simp only [← argFlag_eq]
  refine ⟨fun hsel => ?imu, fun hsel => ?vibration⟩
  case imu => exact ⟨_, exec_evCmdIn_featCode (cmd := .toggleImu) hp hch hsel now, rfl, rfl⟩
  case vibration => exact ⟨_, exec_evCmdIn_featCode (cmd := .enableVibration) hp hch hsel now, rfl, rfl⟩

/-- Settles O35. -/
theorem deviceInfoReply : Obligations.DeviceInfoReply := by
  intro s c now hvalid hch hsel
  have hevent := exec_evCmdIn_featCode (cmd := .deviceInfo) ((Params.valid_iff s.cfg).1 hvalid) hch hsel now
  exact ⟨_, hevent, rfl, rfl⟩

/-- Settles O36: the address bytes echoed are those the address was made of. -/
theorem spiReadReply : Obligations.SpiReadReply := by
  intro s c now hvalid hch hsel
  have hevent := exec_evCmdIn_featCode (cmd := .spiRead) ((Params.valid_iff s.cfg).1 hvalid) hch hsel now
  refine ⟨_, _, addrOfBytes_toNat _ _ _ _, hevent, rfl, ?_⟩
  simp only [queueReply, setPending, touchHost, addrBytes_addrOfBytes]
  rfl

end Sys2Proof.Machine
end

section
/-! A command's whole effect in two parts: the session registers it writes, which its word alone decides, and its
reply, which the word decides together with the parameters, `ID_LOW` and `player_id` (43_feature_channel.md R155). -/

namespace Sys2Proof.Machine

/-- The session registers a command writes; `none` leaves a register as it was. -/
structure SessionWrites where
  player : Option Byte := none
  mode : Option Byte := none
  imu : Option Bool := none
  vib : Option Bool := none
  rdy : Option Bool := none

def SessionWrites.apply (w : SessionWrites) (s : State) : State :=
  { s with playerId := w.player.getD s.playerId, inputMode := w.mode.getD s.inputMode, imuEn := w.imu.getD s.imuEn
           vibEn := w.vib.getD s.vibEn, ready := w.rdy.getD s.ready }

/-- What the rule of a command writes to the session. -/
def sessionWrites : HostCommand → SessionWrites
  | .disableTimeout => { rdy := some true }
  | .setMode arg => { mode := some arg }
  | .setPlayerLights arg => { player := some arg }
  | .toggleImu arg => { imu := some (argFlag arg) }
  | .enableVibration arg => { vib := some (argFlag arg) }
  | _ => {}

/-- The reply of a command's rule, by channel and payload; the ignored word has none. -/
def commandReply (p : Params) (low : IdBytes) (player : Byte) : HostCommand → Option (Channel × List Byte)
  | .identify => some (.cfg, identPayload p low)
  | .handshake => some (.cfg, [p.cfgCodes.handshake])
  | .baud => some (.cfg, [p.cfgCodes.baud])
  | .disableTimeout => some (.cfg, [p.cfgCodes.disableTimeout])
  | .enableTimeout => some (.cfg, [p.cfgCodes.enableTimeout])
  | .cfgDefault sel => some (.cfg, [sel])
  | .getState => some (.feat, genAck p .getState)
  | .pair => some (.feat, genAck p .pair)
  | .deviceInfo => some (.feat, genAck p .deviceInfo ++ devId p low)
  | .setMode _ => some (.feat, genAck p .setMode)
  | .triggerButtons => some (.feat, genAck p .triggerButtons)
  | .setShipment => some (.feat, genAck p .setShipment)
  | .spiRead addr size =>
    some (.feat, genAck p .spiRead ++ addrBytes addr ++ [size] ++ vfRead p addr (min size.toNat p.spiReadMax))
  | .setNfcIrConfig => some (.feat, genAck p .setNfcIrConfig)
  | .setNfcIrState => some (.feat, genAck p .setNfcIrState)
  | .setPlayerLights _ => some (.feat, genAck p .setPlayerLights)
  | .getPlayerLights => some (.feat, genAck p .getPlayerLights ++ [player])
  | .setHomeLight => some (.feat, genAck p .setHomeLight)
  | .toggleImu _ => some (.feat, genAck p .toggleImu)
  | .setImuSensitivity => some (.feat, genAck p .setImuSensitivity)
  | .enableVibration _ => some (.feat, genAck p .enableVibration)
  | .readImu => some (.feat, genAck p .readImu)
  | .getVoltage => some (.feat, genAck p .getVoltage)
  | .legacyUnknown => some (.feat, genAck p .legacyUnknown)
  | .featDefault sel => some (.feat, [p.ackDefault, sel])
  | .ignored _ => none

/-- Every command with a reply is its session writes, then that reply. -/
theorem runHostCommand_eq {s : State} {cmd : HostCommand} {chan : Channel} {payload : List Byte}
    (h : commandReply s.cfg s.idLow s.playerId cmd = some (chan, payload)) (now : Time) :
    runHostCommand cmd now s = .next (queueReply chan payload now ((sessionWrites cmd).apply s)) := by
  cases cmd <;> cases h <;> rfl

theorem commandReply_isSome_of_cfg (p : Params) (low : IdBytes) (player sel : Byte) :
    ∃ chan payload, commandReply p low player (configCommand p sel) = some (chan, payload) := by
  rw [configCommand_eq]
  cases selectCfg p sel with
  | none => exact ⟨_, _, rfl⟩
  | some cmd => cases cmd <;> exact ⟨_, _, rfl⟩

theorem commandReply_isSome_of_feat (p : Params) (low : IdBytes) (player : Byte) (c : List Byte) :
    ∃ chan payload, commandReply p low player (featureCommand p c) = some (chan, payload) := by
  rw [featureCommand_eq]
  cases selectFeat p (cbyte p c p.featSelOff) with
  | none => exact ⟨_, _, rfl⟩
  | some cmd => cases cmd <;> exact ⟨_, _, rfl⟩

/-- Every word of a channel is answered. -/
theorem commandReply_isSome {p : Params} {c : List Byte}
    (hch : cbyte p c 0 = p.chConfig ∨ cbyte p c 0 = p.chFeature) (low : IdBytes) (player : Byte) :
    ∃ chan payload, commandReply p low player (hostCommand p c) = some (chan, payload) := by
  rw [hostCommand]
  split
  next => exact commandReply_isSome_of_cfg p low player _
  next hcfg =>
    rw [if_pos (hch.resolve_left hcfg)]
    exact commandReply_isSome_of_feat p low player c

/-- The CmdIn of a channel's word: its reply exists, and its next state is the session writes and that reply. -/
theorem evCmdIn_answers {s t : State} {c : List Byte} {now : Time}
    (hch : cbyte s.cfg c 0 = s.cfg.chConfig ∨ cbyte s.cfg c 0 = s.cfg.chFeature)
    (h : exec (.evCmdIn c now) s = .next t) :
    ∃ chan payload, commandReply s.cfg s.idLow s.playerId (hostCommand s.cfg c) = some (chan, payload)
      ∧ t = queueReply chan payload now ((sessionWrites (hostCommand s.cfg c)).apply s) := by
  obtain ⟨chan, payload, hreply⟩ := commandReply_isSome hch s.idLow s.playerId
  rw [exec_evCmdIn, exec_toInstr, runHostCommand_eq hreply] at h
  exact ⟨chan, payload, hreply, (Host.Outcome.next.inj h).symm⟩

/-- One optional write to two registers makes them equal or changes neither. -/
theorem getD_agrees {α : Type} (write : Option α) (old old' : α) :
    write.getD old = write.getD old' ∨ (write.getD old = old ∧ write.getD old' = old') := by
  cases write with
  | none => exact .inr ⟨rfl, rfl⟩
  | some new => exact .inl rfl

/-- Settles O40: both runs take one command, so their session writes are the same, and their replies are the same
function of `ID_LOW` and `player_id`. -/
theorem repliesDependOnlyOnWordAndIdentity : Obligations.RepliesDependOnlyOnWordAndIdentity := by
  intro s s' t t' c now now' hcfg hch ht ht'
  obtain ⟨chan, payload, hreply, rfl⟩ := evCmdIn_answers hch ht
  obtain ⟨chan', payload', hreply', rfl⟩ := evCmdIn_answers (hcfg ▸ hch) ht'
  rw [← hcfg] at hreply' ⊢
  refine ⟨fun hplayer hlow => ?_, getD_agrees _ _ _, getD_agrees _ _ _, getD_agrees _ _ _, getD_agrees _ _ _,
    getD_agrees _ _ _⟩
  rw [← hplayer, ← hlow, hreply] at hreply'
  cases hreply'
  exact ⟨rfl, rfl⟩

end Sys2Proof.Machine
end

section
/-! The report scheduler (44_report_scheduler.md): the periodic input report and its snapshot, the one-shot
identification, the Ticks that only wake, and when a report leaves at all. -/

namespace Sys2Proof.Machine

/-! ## One Tick -/

/-- Settles O45: `tick_periodic`, with `Same` read as the equality of every byte but byte 1. -/
theorem dueTickSendsAChangedInputReport : Obligations.DueTickSendsAChangedInputReport := by
  intro s now txReady suspended hdue hpr hready
  rw [exec_evTick, tick_periodic hdue hpr hready]
  simp only [← same_iff, ← Bool.and_eq_true]
  refine ⟨fun hsame => ?suppressed, fun hchanged => ?changed⟩
  case suppressed =>
    rw [if_pos hsame]
    rfl
  case changed =>
    rw [if_neg hchanged]
    rfl

/-- Settles O46. -/
theorem dueTickSendsTheIdentification : Obligations.DueTickSendsTheIdentification := by
  intro s now txReady suspended hdue hpr hready hinit
  rw [exec_evTick, tick_identify hdue hpr hready hinit]
  rfl

theorem tick_unready (now : Time) (suspended : Bool) (s : State) :
    tick now false suspended s = drive (.wakeReq suspended) s := by
  obtain hwake | ⟨hready, -⟩ := tick_cases now false suspended s
  · exact hwake
  · cases hready

/-- Settles O47, a lemma for each reason to send nothing. -/
theorem tickThatMaySendNothingOnlyWakes : Obligations.TickThatMaySendNothingOnlyWakes := by
  rintro s now txReady suspended (hearly | rfl | ⟨hpr, hready, hinit⟩)
  · rw [exec_evTick, tick_early hearly]
    rfl
  · rw [exec_evTick, tick_unready]
    rfl
  · rw [exec_evTick, tick_quiet hpr hready hinit]
    rfl

/-! ## When a report leaves -/

/-- From s to t no report left, and the two registers of a sending are as they were. -/
structure NothingSent (s t : State) : Prop where
  reports : reportsOf t.outputs = reportsOf s.outputs
  lastSentT : t.lastSentT = s.lastSentT
  ctr : t.ctr = s.ctr

/-- From s to t one report of `REPORT_LEN` bytes left at `now`. -/
structure OneReportSent (now : Time) (report : List Byte) (s t : State) : Prop where
  isDue : s.cfg.sendIntervalMs ≤ (now - s.lastSentT).toNat
  reports : reportsOf t.outputs = reportsOf s.outputs ++ [report]
  length : report.length = s.cfg.reportLen
  lastSentT : t.lastSentT = now
  ctr : t.ctr = s.ctr + 1

theorem command_sendsNothing {i : Instr} {s t : State} (hcmd : Instr.isCommand i = true) (h : exec i s = .next t) :
    NothingSent s t := by
  obtain ⟨u, hu, hframe⟩ := commandsWriteOnlySessionAndReply i s hcmd
  rw [exec_next_inj h hu, hframe]
  exact ⟨rfl, rfl, rfl⟩

/-- A Tick sends nothing, or one report with the transport ready. -/
theorem tick_sends_cases (now : Time) (txReady suspended : Bool) (s : State) :
    NothingSent s (tick now txReady suspended s)
    ∨ txReady = true ∧ ∃ report, OneReportSent now report s (tick now txReady suspended s) := by
  rcases tick_cases now txReady suspended s with
    hwake | ⟨htx, hdue, ⟨-, hreply⟩ | ⟨-, -, hinput⟩ | ⟨-, -, -, hident⟩⟩
  · rw [hwake]
    exact .inl ⟨reportsOf_append_wakeReq s.outputs suspended, rfl, rfl⟩
  · rw [hreply]
    exact .inr ⟨htx, _, hdue, reportsOf_tickSend _ now suspended s, frameReply_length s _ _, rfl, rfl⟩
  · rw [hinput]
    exact .inr ⟨htx, _, hdue, reportsOf_tickSend _ now suspended s, buildInput_length s.cfg _ _, rfl, rfl⟩
  · rw [hident]
    exact .inr ⟨htx, _, hdue, reportsOf_tickSend _ now suspended s, frameReply_length s _ _, rfl, rfl⟩

/-- All an instruction can do to the reports: PowerOn resets the registers, a Tick may send, the rest send nothing. -/
theorem exec_sends_cases {i : Instr} {s t : State} (h : exec i s = .next t) :
    NothingSent s t
    ∨ (reportsOf t.outputs = reportsOf s.outputs ∧ ∃ draw, i = .evPowerOn draw)
    ∨ ∃ now suspended report, i = .evTick now true suspended ∧ OneReportSent now report s t := by
  cases unitStep_of_exec h with
  | command hcmd hexec => exact .inl (command_sendsNothing hcmd hexec)
  | serial bytes now =>
    have hsame := bytesIn_same bytes now s
    exact .inl ⟨hsame.reports, hsame.lastSentT, hsame.ctr⟩
  | rumble r =>
    refine .inl ⟨?_, rfl, rfl⟩
    simp [emitRumble, reportsOf]
  | powerOn draw hexec => cases hexec; exact .inr (.inl ⟨rfl, draw, rfl⟩)
  | linkReset hexec => cases hexec; exact .inl ⟨rfl, rfl, rfl⟩
  | tick now txReady suspended =>
    obtain hnone | ⟨rfl, report, hsent⟩ := tick_sends_cases now txReady suspended s
    · exact .inl hnone
    · exact .inr (.inr ⟨now, suspended, report, rfl, hsent⟩)

/-- Settles O48, from `exec_sends_cases`. -/
theorem reportsLeaveOnlyInDueTicks : Obligations.ReportsLeaveOnlyInDueTicks := by
  intro i s _
  obtain ⟨t, ht⟩ := exec_completes i s
  refine ⟨t, ht, ?_⟩
  obtain ⟨hreports, hlast, hctr⟩ | ⟨hreports, hpower⟩
    | ⟨now, suspended, report, hi, hdue, hreports, hlen, hlast, hctr⟩ := exec_sends_cases ht
  · exact .inl ⟨hreports, .inl ⟨hlast, hctr⟩⟩
  · exact .inl ⟨hreports, .inr hpower⟩
  · exact .inr ⟨now, suspended, report, hi, hdue, hreports, hlen, hlast, hctr⟩

/-! ## Runs of Ticks over unchanged input -/

/-- The snapshot suppresses the input report of the moment. -/
def Suppressed (s : State) : Prop :=
  s.snapValid = true ∧ same s.cfg.reportLen (buildInput s.cfg s.input s.ctr) s.snap = true

/-- Ticks with the transport ready, at the times and with the suspend flags given. -/
def readyTicks (ticks : List (Time × Bool)) : List Instr := ticks.map fun tk => Instr.evTick tk.1 true tk.2

theorem execAll_readyTicks_cons (tk : Time × Bool) (ticks : List (Time × Bool)) (s : State) :
    execAll (readyTicks (tk :: ticks)) s = execAll (readyTicks ticks) (tick tk.1 true tk.2 s) := rfl

/-- The Tick of the periodic sender that sends. -/
def sendInput (now : Time) (suspended : Bool) (s : State) : State :=
  { tickSend (buildInput s.cfg s.input s.ctr) now suspended s with
    snap := buildInput s.cfg s.input s.ctr, snapValid := true }

theorem tick_suppressed {s : State} (hready : s.ready = true) (hpr : s.prValid = false) (h : Suppressed s)
    (now : Time) (suspended : Bool) : tick now true suspended s = drive (.wakeReq suspended) s := by
  by_cases hdue : s.cfg.sendIntervalMs ≤ (now - s.lastSentT).toNat
  · rw [tick_periodic hdue hpr hready, if_pos (Bool.and_eq_true_iff.2 h)]
  · exact tick_early (by omega) true suspended

theorem tick_changed {s : State} {now : Time} (hdue : s.cfg.sendIntervalMs ≤ (now - s.lastSentT).toNat)
    (hready : s.ready = true) (hpr : s.prValid = false) (h : ¬ Suppressed s) (suspended : Bool) :
    tick now true suspended s = sendInput now suspended s := by
  rw [tick_periodic hdue hpr hready, if_neg (fun hsame => h (Bool.and_eq_true_iff.1 hsame)), if_pos rfl, sendInput]

/-- What was sent is the snapshot, and only the counter has stepped since. -/
theorem suppressed_sendInput (now : Time) (suspended : Bool) (s : State) :
    Suppressed (sendInput now suspended s) :=
  ⟨rfl, same_buildInput s.cfg s.input (s.ctr + 1) s.ctr⟩

/-- Where the snapshot suppresses the report, no Tick of a run sends it. -/
theorem readyTicks_suppressed (ticks : List (Time × Bool)) {s : State} (hready : s.ready = true)
    (hpr : s.prValid = false) (h : Suppressed s) :
    ∃ t, execAll (readyTicks ticks) s = .next t ∧ t.input = s.input ∧ reportsOf t.outputs = reportsOf s.outputs := by
  induction ticks generalizing s with
  | nil => exact ⟨s, rfl, rfl, rfl⟩
  | cons tk ticks ih =>
    obtain ⟨t, ht, hinput, hreports⟩ := ih (s := drive (.wakeReq tk.2) s) hready hpr h
    rw [execAll_readyTicks_cons, tick_suppressed hready hpr h]
    exact ⟨t, ht, hinput, hreports.trans (reportsOf_append_wakeReq s.outputs tk.2)⟩

/-- Where it does not, a run sends nothing while no Tick is due, and the report of its start once one is. -/
theorem readyTicks_changed (ticks : List (Time × Bool)) {s : State} (hready : s.ready = true)
    (hpr : s.prValid = false) (h : ¬ Suppressed s) :
    ∃ t, execAll (readyTicks ticks) s = .next t ∧ t.input = s.input
      ∧ reportsOf t.outputs =
          if ∃ tk ∈ ticks, s.cfg.sendIntervalMs ≤ (tk.1 - s.lastSentT).toNat then
            reportsOf s.outputs ++ [buildInput s.cfg s.input s.ctr]
          else reportsOf s.outputs := by
  induction ticks generalizing s with
  | nil => exact ⟨s, rfl, rfl, by simp⟩
  | cons tk ticks ih =>
    rw [execAll_readyTicks_cons]
    by_cases hdue : s.cfg.sendIntervalMs ≤ (tk.1 - s.lastSentT).toNat
    · obtain ⟨t, ht, hinput, hreports⟩ :=
        readyTicks_suppressed ticks (s := sendInput tk.1 tk.2 s) hready hpr (suppressed_sendInput tk.1 tk.2 s)
      rw [tick_changed hdue hready hpr h, if_pos ⟨tk, List.mem_cons_self, hdue⟩]
      exact ⟨t, ht, hinput, hreports.trans (reportsOf_tickSend _ tk.1 tk.2 s)⟩
    · obtain ⟨t, ht, hinput, hreports⟩ := ih (s := drive (.wakeReq tk.2) s) hready hpr h
      rw [tick_early (by omega)]
      refine ⟨t, ht, hinput, hreports.trans ?_⟩
      simp only [List.exists_mem_cons_iff, hdue, false_or, drive_outputs, reportsOf_append_wakeReq]
      rfl

/-- Settles O49, the two kinds of run apart. -/
theorem unchangedInputIsSentAtMostOnce : Obligations.UnchangedInputIsSentAtMostOnce := by
  intro s ticks hready hpr
  by_cases h : Suppressed s
  · obtain ⟨t, ht, hinput, hreports⟩ := readyTicks_suppressed ticks hready hpr h
    exact ⟨t, ht, hinput, by rw [hreports]; omega, fun _ => hreports, fun hnot => absurd h hnot⟩
  · obtain ⟨t, ht, hinput, hreports⟩ := readyTicks_changed ticks hready hpr h
    refine ⟨t, ht, hinput, ?atMostOne, fun hsup => absurd hsup h, fun _ hdue => by rw [hreports, if_pos hdue]⟩
    rw [hreports]
    split <;> simp

end Sys2Proof.Machine
end

section
/-! What an event drives does not depend on what was driven before (60_exceptions.md R192): every operation appends to
the outputs and reads none of them. -/

namespace Sys2Proof.Machine

/-- The state with another record of earlier outputs. -/
def withOutputs (before : List Output) (s : State) : State := { s with outputs := before }

theorem withOutputs_cfg (before : List Output) (s : State) : (withOutputs before s).cfg = s.cfg := rfl

/-- Whatever was driven before, f drives the same and leads to the same registers. -/
def AppendsOnly (f : State → State) (s : State) : Prop :=
  ∃ driven, ∀ before, f (withOutputs before s) = withOutputs (before ++ driven) (f s)

/-- A function that is, at every record of outputs, one that drives `driven`. -/
theorem AppendsOnly.of_eq {f g : State → State} {s : State} {driven : List Output}
    (hf : ∀ before, f (withOutputs before s) = g (withOutputs before s))
    (hg : ∀ before, g (withOutputs before s) = withOutputs (before ++ driven) (g s)) : AppendsOnly f s := by
  have hself : f s = g s := hf s.outputs
  exact ⟨driven, fun before => by rw [hf, hg, hself]⟩

/-! ## The decoder -/

theorem byteIn_appendsOnly_idle {s : State} (hs : s.fdState = .idle) (b : Byte) (now : Time) :
    AppendsOnly (byteIn b now) s := by
  by_cases hb : b = s.cfg.sentinel
  · exact .of_eq (g := beginFrame b now .none)
      (fun before => (byteIn_idle (s := withOutputs before s) hs b now).trans (if_pos hb)) fun _ => rfl
  · exact .of_eq (g := discardByte now)
      (fun before => (byteIn_idle (s := withOutputs before s) hs b now).trans (if_neg hb)) fun _ => rfl

theorem byteIn_appendsOnly_late {s : State} (hs : s.fdState = .syncing) {now : Time}
    (hgap : s.cfg.fdTimeoutMs < (now - s.fdLastT).toNat) (b : Byte) : AppendsOnly (byteIn b now) s := by
  by_cases hb : b = s.cfg.sentinel
  · exact .of_eq (g := beginFrame b now .dropTimeout)
      (fun before => (byteIn_late (s := withOutputs before s) hs hgap b).trans (if_pos hb)) fun _ => rfl
  · exact .of_eq (g := dropFrame now .dropTimeout)
      (fun before => (byteIn_late (s := withOutputs before s) hs hgap b).trans (if_neg hb)) fun _ => rfl

theorem byteIn_appendsOnly_inTime {s : State} (hs : s.fdState = .syncing) {now : Time}
    (hgap : (now - s.fdLastT).toNat ≤ s.cfg.fdTimeoutMs) (b : Byte) : AppendsOnly (byteIn b now) s := by
  by_cases hl : atLength s
  · by_cases hok : lengthAccepted s.cfg (b.toNat + 4) = true
    · exact .of_eq (g := appendByte b now (some (b.toNat + 4)))
        (fun before => (byteIn_length (s := withOutputs before s) hs hgap hl b).trans (if_pos hok)) fun _ => rfl
    · exact .of_eq (g := dropFrame now .dropLen)
        (fun before => (byteIn_length (s := withOutputs before s) hs hgap hl b).trans (if_neg hok)) fun _ => rfl
  · by_cases hend : s.fdExp = some (s.fdCnt + 1)
    · exact .of_eq (g := finishFrame b now)
        (fun before => (byteIn_body (s := withOutputs before s) hs hgap hl b).trans (if_pos hend)) fun _ => rfl
    · exact .of_eq (g := appendByte b now s.fdExp)
        (fun before => (byteIn_body (s := withOutputs before s) hs hgap hl b).trans (if_neg hend)) fun _ => rfl

theorem byteIn_appendsOnly (b : Byte) (now : Time) (s : State) : AppendsOnly (byteIn b now) s := by
  cases hs : s.fdState with
  | idle => exact byteIn_appendsOnly_idle hs b now
  | syncing =>
    by_cases hgap : (now - s.fdLastT).toNat ≤ s.cfg.fdTimeoutMs
    · exact byteIn_appendsOnly_inTime hs hgap b
    · exact byteIn_appendsOnly_late hs (Nat.not_le.1 hgap) b

theorem bytesIn_appendsOnly (bytes : List Byte) (now : Time) (s : State) : AppendsOnly (bytesIn bytes now) s := by
  induction bytes generalizing s with
  | nil => exact ⟨[], fun before => by rw [List.append_nil]; rfl⟩
  | cons b bytes ih =>
    obtain ⟨byByte, hbyte⟩ := byteIn_appendsOnly b now s
    obtain ⟨byRest, hrest⟩ := ih (byteIn b now s)
    refine ⟨byByte ++ byRest, fun before => ?_⟩
    rw [bytesIn_cons, bytesIn_cons, hbyte, hrest, List.append_assoc]

/-- The bytes of a frame row, which the parameters alone decide. -/
theorem frameRow_appendsOnly (frame : Params → List Byte) (now : Time) (s : State) :
    AppendsOnly (fun s => bytesIn (frame s.cfg) now s) s := by
  obtain ⟨driven, hdriven⟩ := bytesIn_appendsOnly (frame s.cfg) now s
  exact ⟨driven, hdriven⟩

/-! ## The scheduler and the rumble relay -/

/-- The Tick that sends the pending reply. -/
def sendPending (now : Time) (suspended : Bool) (s : State) : State :=
  { tickSend (frameReply s s.prChan s.prPayload) now suspended s with prValid := false }

/-- The Tick that sends the identification. -/
def sendIdentification (now : Time) (suspended : Bool) (s : State) : State :=
  { tickSend (frameReply s .cfg (identPayload s.cfg s.idLow)) now suspended s with initialized := true }

theorem frameReply_withOutputs (before : List Output) (s : State) (chan : Channel) (payload : List Byte) :
    frameReply (withOutputs before s) chan payload = frameReply s chan payload := by
  cases chan <;> rfl

theorem sendPending_withOutputs (now : Time) (suspended : Bool) (before : List Output) (s : State) :
    sendPending now suspended (withOutputs before s)
      = withOutputs (before ++ [.wakeReq suspended, .usbTx (frameReply s s.prChan s.prPayload)])
          (sendPending now suspended s) := by
  rw [sendPending, frameReply_withOutputs]
  rfl

theorem tick_appendsOnly_due {s : State} {now : Time} (hdue : s.cfg.sendIntervalMs ≤ (now - s.lastSentT).toNat)
    (suspended : Bool) : AppendsOnly (tick now true suspended) s := by
  cases hpr : s.prValid with
  | true =>
    exact .of_eq (g := sendPending now suspended)
      (fun before => (tick_reply (s := withOutputs before s) hdue hpr true suspended).trans (if_pos rfl))
      fun before => sendPending_withOutputs now suspended before s
  | false =>
    cases hready : s.ready with
    | true =>
      by_cases hsup : Suppressed s
      · exact .of_eq (g := drive (.wakeReq suspended))
          (fun before => tick_suppressed (s := withOutputs before s) hready hpr hsup now suspended) fun _ => rfl
      · exact .of_eq (g := sendInput now suspended)
          (driven := [.wakeReq suspended, .usbTx (buildInput s.cfg s.input s.ctr)])
          (fun before => tick_changed (s := withOutputs before s) hdue hready hpr hsup suspended) fun _ => rfl
    | false =>
      cases hinit : s.initialized with
      | true =>
        exact .of_eq (g := drive (.wakeReq suspended))
          (fun before => tick_quiet (s := withOutputs before s) hpr hready hinit now true suspended) fun _ => rfl
      | false =>
        exact .of_eq (g := sendIdentification now suspended)
          (driven := [.wakeReq suspended, .usbTx (frameReply s .cfg (identPayload s.cfg s.idLow))])
          (fun before =>
            (tick_identify (s := withOutputs before s) hdue hpr hready hinit true suspended).trans (if_pos rfl))
          fun _ => rfl

theorem tick_appendsOnly (now : Time) (txReady suspended : Bool) (s : State) :
    AppendsOnly (tick now txReady suspended) s := by
  by_cases hdue : s.cfg.sendIntervalMs ≤ (now - s.lastSentT).toNat
  · cases txReady with
    | true => exact tick_appendsOnly_due hdue suspended
    | false =>
      exact .of_eq (g := drive (.wakeReq suspended)) (fun before => tick_unready now suspended (withOutputs before s))
        fun _ => rfl
  · exact .of_eq (g := drive (.wakeReq suspended))
      (fun before => tick_early (s := withOutputs before s) (Nat.not_le.1 hdue) txReady suspended) fun _ => rfl

theorem emitRumble_appendsOnly (r : Haptic) (s : State) : AppendsOnly (emitRumble r) s :=
  ⟨[.serialTx (rumbleFrameBytes s.cfg r)], fun _ => rfl⟩

/-! ## Every instruction -/

/-- The instruction drives the same and leads to the same registers, whatever was driven before. -/
def NeverReadsBack (i : Instr) (s : State) : Prop :=
  ∃ t driven, exec i s = .next t ∧ t.outputs = s.outputs ++ driven
    ∧ ∀ before, exec i (withOutputs before s) = .next (withOutputs (before ++ driven) t)

theorem NeverReadsBack.of_appendsOnly {i : Instr} {f : State → State} (hexec : ∀ s, exec i s = .next (f s))
    {s : State} (h : AppendsOnly f s) : NeverReadsBack i s := by
  obtain ⟨driven, hdriven⟩ := h
  exact ⟨f s, driven, hexec s, congrArg State.outputs (hdriven s.outputs),
    fun before => (hexec _).trans (congrArg Host.Outcome.next (hdriven before))⟩

/-- An instruction that drives nothing. -/
theorem NeverReadsBack.of_silent {i : Instr} {s t : State} (h : exec i s = .next t) (hout : t.outputs = s.outputs)
    (hbefore : ∀ before, exec i (withOutputs before s) = .next (withOutputs before t)) : NeverReadsBack i s :=
  ⟨t, [], h, hout.trans (List.append_nil _).symm, fun before => by rw [List.append_nil, hbefore]⟩

theorem toInstr_neverReadsBack (cmd : HostCommand) (now : Time) (s : State) :
    NeverReadsBack (cmd.toInstr now) s := by
  cases cmd <;> exact .of_silent rfl rfl fun _ => rfl

theorem exec_neverReadsBack (i : Instr) (s : State) : NeverReadsBack i s := by
  cases i
  case evCmdIn c now =>
    obtain ⟨t, driven, ht, hout, hbefore⟩ := toInstr_neverReadsBack (hostCommand s.cfg c) now s
    exact ⟨t, driven, (exec_evCmdIn c now s).trans ht, hout,
      fun before => by rw [exec_evCmdIn, withOutputs_cfg, hbefore]⟩
  case frameLegacy8 fb now =>
    exact .of_appendsOnly (exec_frameLegacy8 fb now) (frameRow_appendsOnly (fun p => legacyFrame p fb) now s)
  case frameLenpfx version fb extra trailer now =>
    exact .of_appendsOnly (exec_frameLenpfx version fb extra trailer now)
      (frameRow_appendsOnly (fun p => lenpfxFrame p version fb extra trailer) now s)
  case evByteIn b now => exact .of_appendsOnly (exec_evByteIn b now) (byteIn_appendsOnly b now s)
  case evTick now txReady suspended =>
    exact .of_appendsOnly (exec_evTick now txReady suspended) (tick_appendsOnly now txReady suspended s)
  case rumbleFrame r => exact .of_appendsOnly (f := emitRumble r) (fun _ => rfl) (emitRumble_appendsOnly r s)
  case evRumbleIn r now => exact .of_appendsOnly (f := emitRumble r) (fun _ => rfl) (emitRumble_appendsOnly r s)
  all_goals exact .of_silent rfl rfl fun _ => rfl

/-- Settles O52. -/
theorem outputsAreNeverReadBack : Obligations.OutputsAreNeverReadBack :=
  exec_neverReadsBack

end Sys2Proof.Machine
end
